-- ==== Sys2Proof/Word.lean ====
section
/-! DEFINITION. The word types of the ocho CHIP-8 core (00_scope.md R5, R6): every value is an unsigned number of a stated
width. -/

namespace Sys2Proof

/-- An 8-bit value: a general register, a timer, a byte of memory, a constant `NN`. -/
abbrev Byte := BitVec 8

/-- A 16-bit value: an instruction word, `PC`, `I`, a call-stack slot, the key levels. -/
abbrev Word := BitVec 16

/-- A 12-bit address constant `NNN`, and an address of the ROM load port. -/
abbrev Addr := BitVec 12

/-- A register number 0 to 15 (10_state.md R10). -/
abbrev Reg := Fin 16

/-- A sprite's row count `N`, 0 to 15 (30_encoding.md R62). -/
abbrev RowCount := Fin 16

end Sys2Proof
end

