-- ==== Sys2Proof/Syntax.lean ====
section
/-! DEFINITION. The 35 instructions and the catch-all UNKNOWN (30_encoding.md R64, opcode_table.json), one constructor per
row, in the table's order. -/

namespace Sys2Proof

/-- One constructor per row of spec/opcode_table.json; the fields are those of 00_scope.md R8. -/
inductive Instr where
  /-- 00E0 (R130). -/
  | cls
  /-- 00EE (R81). -/
  | ret
  /-- 0NNN other than 00E0 and 00EE (R80). -/
  | sys (nnn : Addr)
  /-- 1NNN (R82). -/
  | jp (nnn : Addr)
  /-- 2NNN (R83). -/
  | call (nnn : Addr)
  /-- 3XNN (R90). -/
  | seImm (x : Reg) (nn : Byte)
  /-- 4XNN (R91). -/
  | sneImm (x : Reg) (nn : Byte)
  /-- 5XY0 (R92). -/
  | seReg (x y : Reg)
  /-- 6XNN (R100). -/
  | ldImm (x : Reg) (nn : Byte)
  /-- 7XNN (R101). -/
  | addImm (x : Reg) (nn : Byte)
  /-- 8XY0 (R110). -/
  | ldReg (x y : Reg)
  /-- 8XY1 (R111). -/
  | orReg (x y : Reg)
  /-- 8XY2 (R112). -/
  | andReg (x y : Reg)
  /-- 8XY3 (R113). -/
  | xorReg (x y : Reg)
  /-- 8XY4 (R114). -/
  | addReg (x y : Reg)
  /-- 8XY5 (R115). -/
  | sub (x y : Reg)
  /-- 8XY6 (R116). -/
  | shr (x y : Reg)
  /-- 8XY7 (R117). -/
  | subn (x y : Reg)
  /-- 8XYE (R118). -/
  | shl (x y : Reg)
  /-- 9XY0 (R93). -/
  | sneReg (x y : Reg)
  /-- ANNN (R102). -/
  | ldI (nnn : Addr)
  /-- BNNN (R84). -/
  | jpOffset (nnn : Addr)
  /-- CXNN (R103). -/
  | rnd (x : Reg) (nn : Byte)
  /-- DXYN (R131). -/
  | drw (x y : Reg) (n : RowCount)
  /-- EX9E (R140). -/
  | skp (x : Reg)
  /-- EXA1 (R141). -/
  | sknp (x : Reg)
  /-- FX07 (R150). -/
  | ldVxDt (x : Reg)
  /-- FX0A (R142). -/
  | ldVxK (x : Reg)
  /-- FX15 (R151). -/
  | ldDtVx (x : Reg)
  /-- FX18 (R152). -/
  | ldStVx (x : Reg)
  /-- FX1E (R160). -/
  | addIVx (x : Reg)
  /-- FX29 (R161). -/
  | ldFVx (x : Reg)
  /-- FX33 (R162). -/
  | ldBVx (x : Reg)
  /-- FX55 (R163). -/
  | ldMemVx (x : Reg)
  /-- FX65 (R164). -/
  | ldVxMem (x : Reg)
  /-- Any word no earlier row matches (R85), kept whole. -/
  | unknown (w : Word)
  deriving DecidableEq, Repr

end Sys2Proof
end

