-- ==== Sys2Proof/WellFormed.lean ====
section
/-! DEFINITION. The opcode table of 30_encoding.md R64 as rows of match and mask, and which terms of `Instr` stand for an
instruction: a SYS term is none of the words 00E0 and 00EE, and an UNKNOWN term holds a word that no row matches. -/

namespace Sys2Proof

/-- A row of opcode_table.json: its place in the list (first match wins) and the words it selects. -/
structure Row where
  priority : Nat
  matchBits : Word
  mask : Word
  deriving DecidableEq, Repr

/-- The row selects `w` (30_encoding.md R64: `ir & mask = match`). -/
def Row.selects (r : Row) (w : Word) : Bool := w &&& r.mask == r.matchBits

/-- The row of the table an instruction belongs to. -/
def Instr.row : Instr → Row
  | .cls => ⟨1, 0x00E0, 0xFFFF⟩
  | .ret => ⟨2, 0x00EE, 0xFFFF⟩
  | .sys _ => ⟨3, 0x0000, 0xF000⟩
  | .jp _ => ⟨4, 0x1000, 0xF000⟩
  | .call _ => ⟨5, 0x2000, 0xF000⟩
  | .seImm _ _ => ⟨6, 0x3000, 0xF000⟩
  | .sneImm _ _ => ⟨7, 0x4000, 0xF000⟩
  | .seReg _ _ => ⟨8, 0x5000, 0xF00F⟩
  | .ldImm _ _ => ⟨9, 0x6000, 0xF000⟩
  | .addImm _ _ => ⟨10, 0x7000, 0xF000⟩
  | .ldReg _ _ => ⟨11, 0x8000, 0xF00F⟩
  | .orReg _ _ => ⟨12, 0x8001, 0xF00F⟩
  | .andReg _ _ => ⟨13, 0x8002, 0xF00F⟩
  | .xorReg _ _ => ⟨14, 0x8003, 0xF00F⟩
  | .addReg _ _ => ⟨15, 0x8004, 0xF00F⟩
  | .sub _ _ => ⟨16, 0x8005, 0xF00F⟩
  | .shr _ _ => ⟨17, 0x8006, 0xF00F⟩
  | .subn _ _ => ⟨18, 0x8007, 0xF00F⟩
  | .shl _ _ => ⟨19, 0x800E, 0xF00F⟩
  | .sneReg _ _ => ⟨20, 0x9000, 0xF00F⟩
  | .ldI _ => ⟨21, 0xA000, 0xF000⟩
  | .jpOffset _ => ⟨22, 0xB000, 0xF000⟩
  | .rnd _ _ => ⟨23, 0xC000, 0xF000⟩
  | .drw _ _ _ => ⟨24, 0xD000, 0xF000⟩
  | .skp _ => ⟨25, 0xE09E, 0xF0FF⟩
  | .sknp _ => ⟨26, 0xE0A1, 0xF0FF⟩
  | .ldVxDt _ => ⟨27, 0xF007, 0xF0FF⟩
  | .ldVxK _ => ⟨28, 0xF00A, 0xF0FF⟩
  | .ldDtVx _ => ⟨29, 0xF015, 0xF0FF⟩
  | .ldStVx _ => ⟨30, 0xF018, 0xF0FF⟩
  | .addIVx _ => ⟨31, 0xF01E, 0xF0FF⟩
  | .ldFVx _ => ⟨32, 0xF029, 0xF0FF⟩
  | .ldBVx _ => ⟨33, 0xF033, 0xF0FF⟩
  | .ldMemVx _ => ⟨34, 0xF055, 0xF0FF⟩
  | .ldVxMem _ => ⟨35, 0xF065, 0xF0FF⟩
  | .unknown _ => ⟨36, 0x0000, 0x0000⟩

/-- The 35 rows that name an instruction, in priority order (30_encoding.md R64). -/
def namedRows : List Row :=
  [⟨1, 0x00E0, 0xFFFF⟩, ⟨2, 0x00EE, 0xFFFF⟩, ⟨3, 0x0000, 0xF000⟩, ⟨4, 0x1000, 0xF000⟩, ⟨5, 0x2000, 0xF000⟩,
   ⟨6, 0x3000, 0xF000⟩, ⟨7, 0x4000, 0xF000⟩, ⟨8, 0x5000, 0xF00F⟩, ⟨9, 0x6000, 0xF000⟩, ⟨10, 0x7000, 0xF000⟩] ++
  [⟨11, 0x8000, 0xF00F⟩, ⟨12, 0x8001, 0xF00F⟩, ⟨13, 0x8002, 0xF00F⟩, ⟨14, 0x8003, 0xF00F⟩, ⟨15, 0x8004, 0xF00F⟩,
   ⟨16, 0x8005, 0xF00F⟩, ⟨17, 0x8006, 0xF00F⟩, ⟨18, 0x8007, 0xF00F⟩, ⟨19, 0x800E, 0xF00F⟩, ⟨20, 0x9000, 0xF00F⟩] ++
  [⟨21, 0xA000, 0xF000⟩, ⟨22, 0xB000, 0xF000⟩, ⟨23, 0xC000, 0xF000⟩, ⟨24, 0xD000, 0xF000⟩, ⟨25, 0xE09E, 0xF0FF⟩,
   ⟨26, 0xE0A1, 0xF0FF⟩, ⟨27, 0xF007, 0xF0FF⟩, ⟨28, 0xF00A, 0xF0FF⟩, ⟨29, 0xF015, 0xF0FF⟩, ⟨30, 0xF018, 0xF0FF⟩,
   ⟨31, 0xF01E, 0xF0FF⟩, ⟨32, 0xF029, 0xF0FF⟩, ⟨33, 0xF033, 0xF0FF⟩, ⟨34, 0xF055, 0xF0FF⟩, ⟨35, 0xF065, 0xF0FF⟩]

/-- The whole table: the named rows, then the catch-all, whose mask 0 selects every word. -/
def opcodeRows : List Row := namedRows ++ [⟨36, 0x0000, 0x0000⟩]

/-- The row the table selects for a word: first match wins (opcode_table.json, "priority"). -/
def firstRow (w : Word) : Option Row := opcodeRows.find? (·.selects w)

/-- No named row selects `w` (30_encoding.md R65, the UNKNOWN words). -/
def isUnknownWord (w : Word) : Bool := !namedRows.any (·.selects w)

/-- The terms that stand for an instruction of the table (30_encoding.md R64, R65).  `Reg`, `Byte`, `Addr` and
`RowCount` already bound every other field. -/
def Instr.wellFormed : Instr → Bool
  | .sys nnn => nnn != 0x0E0 && nnn != 0x0EE
  | .unknown w => isUnknownWord w
  | .cls => true
  | .ret => true
  | .jp _ => true
  | .call _ => true
  | .seImm _ _ => true
  | .sneImm _ _ => true
  | .seReg _ _ => true
  | .ldImm _ _ => true
  | .addImm _ _ => true
  | .ldReg _ _ => true
  | .orReg _ _ => true
  | .andReg _ _ => true
  | .xorReg _ _ => true
  | .addReg _ _ => true
  | .sub _ _ => true
  | .shr _ _ => true
  | .subn _ _ => true
  | .shl _ _ => true
  | .sneReg _ _ => true
  | .ldI _ => true
  | .jpOffset _ => true
  | .rnd _ _ => true
  | .drw _ _ _ => true
  | .skp _ => true
  | .sknp _ => true
  | .ldVxDt _ => true
  | .ldVxK _ => true
  | .ldDtVx _ => true
  | .ldStVx _ => true
  | .addIVx _ => true
  | .ldFVx _ => true
  | .ldBVx _ => true
  | .ldMemVx _ => true
  | .ldVxMem _ => true

end Sys2Proof
end

