-- ==== Sys2Proof/Decode.lean ====
section
/-! DEFINITION. Decoding (30_encoding.md R60 to R65) and the encoder written from the same tables. -/

namespace Sys2Proof

/-! ### Fields of an instruction word (00_scope.md R8) -/

/-- `op = ir[15:12]`. -/
def fieldOp (w : Word) : BitVec 4 := w.extractLsb' 12 4

/-- `X = ir[11:8]`. -/
def fieldX (w : Word) : Reg := (w.extractLsb' 8 4).toFin

/-- `Y = ir[7:4]`. -/
def fieldY (w : Word) : Reg := (w.extractLsb' 4 4).toFin

/-- `N = ir[3:0]`. -/
def fieldN (w : Word) : BitVec 4 := w.extractLsb' 0 4

/-- `NN = ir[7:0]`. -/
def fieldNN (w : Word) : Byte := w.extractLsb' 0 8

/-- `NNN = ir[11:0]`. -/
def fieldNNN (w : Word) : Addr := w.extractLsb' 0 12

/-! ### The decoding procedure (30_encoding.md R63) -/

/-- Words whose top nibble is 0: 00E0 and 00EE match whole, every other one is SYS. -/
def decode0 (w : Word) : Instr :=
  if w = 0x00E0 then .cls else if w = 0x00EE then .ret else .sys (fieldNNN w)

/-- The 8XY_ family, selected by `N`. -/
def decode8 (w : Word) : Instr :=
  match fieldN w with
  | 0x0#4 => .ldReg (fieldX w) (fieldY w)
  | 0x1#4 => .orReg (fieldX w) (fieldY w)
  | 0x2#4 => .andReg (fieldX w) (fieldY w)
  | 0x3#4 => .xorReg (fieldX w) (fieldY w)
  | 0x4#4 => .addReg (fieldX w) (fieldY w)
  | 0x5#4 => .sub (fieldX w) (fieldY w)
  | 0x6#4 => .shr (fieldX w) (fieldY w)
  | 0x7#4 => .subn (fieldX w) (fieldY w)
  | 0xE#4 => .shl (fieldX w) (fieldY w)
  | _ => .unknown w

/-- The EX__ words, selected by `NN`. -/
def decodeE (w : Word) : Instr :=
  match fieldNN w with
  | 0x9E#8 => .skp (fieldX w)
  | 0xA1#8 => .sknp (fieldX w)
  | _ => .unknown w

/-- The FX__ words, selected by `NN`. -/
def decodeF (w : Word) : Instr :=
  match fieldNN w with
  | 0x07#8 => .ldVxDt (fieldX w)
  | 0x0A#8 => .ldVxK (fieldX w)
  | 0x15#8 => .ldDtVx (fieldX w)
  | 0x18#8 => .ldStVx (fieldX w)
  | 0x1E#8 => .addIVx (fieldX w)
  | 0x29#8 => .ldFVx (fieldX w)
  | 0x33#8 => .ldBVx (fieldX w)
  | 0x55#8 => .ldMemVx (fieldX w)
  | 0x65#8 => .ldVxMem (fieldX w)
  | _ => .unknown w

/-- Decoding is total: every one of the 65536 words selects exactly one instruction (30_encoding.md R63). -/
def decodeWord (w : Word) : Instr :=
  match fieldOp w with
  | 0x0#4 => decode0 w
  | 0x1#4 => .jp (fieldNNN w)
  | 0x2#4 => .call (fieldNNN w)
  | 0x3#4 => .seImm (fieldX w) (fieldNN w)
  | 0x4#4 => .sneImm (fieldX w) (fieldNN w)
  | 0x5#4 => if fieldN w = 0 then .seReg (fieldX w) (fieldY w) else .unknown w
  | 0x6#4 => .ldImm (fieldX w) (fieldNN w)
  | 0x7#4 => .addImm (fieldX w) (fieldNN w)
  | 0x8#4 => decode8 w
  | 0x9#4 => if fieldN w = 0 then .sneReg (fieldX w) (fieldY w) else .unknown w
  | 0xA#4 => .ldI (fieldNNN w)
  | 0xB#4 => .jpOffset (fieldNNN w)
  | 0xC#4 => .rnd (fieldX w) (fieldNN w)
  | 0xD#4 => .drw (fieldX w) (fieldY w) (fieldN w).toFin
  | 0xE#4 => decodeE w
  | _ => decodeF w

/-- Why a byte sequence holds no instruction: only that it is too short, since every word decodes (R63). -/
inductive DecodeError where
  /-- Fewer than the two bytes of an instruction (30_encoding.md R60). -/
  | truncated
  deriving DecidableEq, Repr

/-- The instruction word of two bytes: the byte at the lower address is the high byte (20_memory.md R43). -/
def wordOfBytes (hi lo : Byte) : Word := hi ++ lo

/-- Read one instruction from a byte sequence and give the rest of the sequence back (30_encoding.md R60). -/
def decode : List Byte → Except DecodeError (Instr × List Byte)
  | hi :: lo :: rest => .ok (decodeWord (wordOfBytes hi lo), rest)
  | [_] => .error .truncated
  | [] => .error .truncated

/-! ### The encoder, from the formats of 30_encoding.md R61 and the patterns of R64 -/

/-- Format `NNN`. -/
def packNNN (op : BitVec 4) (nnn : Addr) : Word := op ++ nnn

/-- Format `XNN`, and format `X` with its fixed low byte. -/
def packXNN (op : BitVec 4) (x : Reg) (nn : Byte) : Word := op ++ BitVec.ofFin (w := 4) x ++ nn

/-- Format `XYN`, and format `XY` with its fixed low nibble. -/
def packXYN (op : BitVec 4) (x y : Reg) (n : BitVec 4) : Word :=
  op ++ BitVec.ofFin (w := 4) x ++ BitVec.ofFin (w := 4) y ++ n

/-- The word of an instruction (30_encoding.md R64). -/
def encode : Instr → Word
  | .cls => 0x00E0
  | .ret => 0x00EE
  | .sys nnn => packNNN 0x0 nnn
  | .jp nnn => packNNN 0x1 nnn
  | .call nnn => packNNN 0x2 nnn
  | .seImm x nn => packXNN 0x3 x nn
  | .sneImm x nn => packXNN 0x4 x nn
  | .seReg x y => packXYN 0x5 x y 0x0
  | .ldImm x nn => packXNN 0x6 x nn
  | .addImm x nn => packXNN 0x7 x nn
  | .ldReg x y => packXYN 0x8 x y 0x0
  | .orReg x y => packXYN 0x8 x y 0x1
  | .andReg x y => packXYN 0x8 x y 0x2
  | .xorReg x y => packXYN 0x8 x y 0x3
  | .addReg x y => packXYN 0x8 x y 0x4
  | .sub x y => packXYN 0x8 x y 0x5
  | .shr x y => packXYN 0x8 x y 0x6
  | .subn x y => packXYN 0x8 x y 0x7
  | .shl x y => packXYN 0x8 x y 0xE
  | .sneReg x y => packXYN 0x9 x y 0x0
  | .ldI nnn => packNNN 0xA nnn
  | .jpOffset nnn => packNNN 0xB nnn
  | .rnd x nn => packXNN 0xC x nn
  | .drw x y n => packXYN 0xD x y (BitVec.ofFin (w := 4) n)
  | .skp x => packXNN 0xE x 0x9E
  | .sknp x => packXNN 0xE x 0xA1
  | .ldVxDt x => packXNN 0xF x 0x07
  | .ldVxK x => packXNN 0xF x 0x0A
  | .ldDtVx x => packXNN 0xF x 0x15
  | .ldStVx x => packXNN 0xF x 0x18
  | .addIVx x => packXNN 0xF x 0x1E
  | .ldFVx x => packXNN 0xF x 0x29
  | .ldBVx x => packXNN 0xF x 0x33
  | .ldMemVx x => packXNN 0xF x 0x55
  | .ldVxMem x => packXNN 0xF x 0x65
  | .unknown w => w

/-- The high byte of a word, stored at the lower address (20_memory.md R43). -/
def highByte (w : Word) : Byte := w.extractLsb' 8 8

/-- The low byte of a word, stored at the higher address (20_memory.md R43). -/
def lowByte (w : Word) : Byte := w.extractLsb' 0 8

/-- The two bytes of an instruction in address order (30_encoding.md R60). -/
def encodeBytes (i : Instr) : List Byte := [highByte (encode i), lowByte (encode i)]

/-- The word of a table row's bits: bit 0 of the table is bit 0 of the one instruction word, and every bit from `nbits`
up is 0. -/
def tableWord (nbits w : Nat) : Word := BitVec.ofNat 16 (w % 2 ^ nbits)

/-- The instruction the decoder reads from an instruction whose bits are `w`, numbered as opcode_table.json numbers
them: the word laid out high byte first, then decoded. -/
def decodeTableWord (nbits w : Nat) : Option Instr :=
  match decode [highByte (tableWord nbits w), lowByte (tableWord nbits w)] with
  | .ok (i, _) => some i
  | .error _ => none

end Sys2Proof
end

