-- ==== Sys2Proof/Machine/Flags.lean ====
section
/-! DEFINITION. The values written to the one flag, VF (10_state.md R12). -/

namespace Sys2Proof.Machine

/-- A truth value as the flag holds it. -/
def flagOf (c : Bool) : Byte := if c then 1 else 0

/-- 8XY4: 1 if the exact sum is above 255 (43_alu.md R114). -/
def carryFlag (a b : Byte) : Byte := flagOf (255 < a.toNat + b.toNat)

/-- 8XY5 and, with the operands exchanged, 8XY7: 1 if the first operand is strictly greater (43_alu.md R115, R117). -/
def greaterFlag (a b : Byte) : Byte := flagOf (b.toNat < a.toNat)

/-- 8XY6: the bit shifted out on the right, bit 0 (43_alu.md R116). -/
def lowBitFlag (a : Byte) : Byte := flagOf (a.getLsbD 0)

/-- 8XYE: the bit shifted out on the left, bit 7 (43_alu.md R118). -/
def highBitFlag (a : Byte) : Byte := flagOf (a.getLsbD 7)

/-- FX1E: 1 if the exact sum is above 0xFFF (47_index_memory.md R160). -/
def indexFlag (i : Word) (b : Byte) : Byte := flagOf (0xFFF < i.toNat + b.toNat)

end Sys2Proof.Machine
end

