-- ==== Sys2Proof/Config.lean ====
section
/-! DEFINITION. The parameters of 00_scope.md R5, the OPEN ones as constants with no body, and the free input values
(93_implementation_defined.md P1 to P9). -/

namespace Sys2Proof

/-- The two values of a quirk flag (10_state.md R21): original COSMAC VIP semantics, or later CHIP-48/SCHIP semantics. -/
inductive Quirk where
  | legacy
  | modern
  deriving DecidableEq, Repr, Inhabited

/-- `SHIFT_FLAG_SOURCE` (00_scope.md R5, 43_alu.md R116, R118). -/
inductive FlagSource where
  | preCopy
  | postCopy
  deriving DecidableEq, Repr, Inhabited

/-- The parameters of 00_scope.md R5, fixed for a run (10_state.md R21).  They are plain data that the state carries, so
that a statement about every state holds for every parameter value (DESIGN CHOICE, safe; log 1). -/
structure Params where
  /-- `Q_SHIFT`: does 8XY6 / 8XYE copy `V[Y]` first (R116, R118). -/
  qShift : Quirk
  /-- `Q_JUMP`: which register BNNN adds (R84). -/
  qJump : Quirk
  /-- `Q_MEMINC`: do FX55 and FX65 advance `I` (R163, R164). -/
  qMemInc : Quirk
  /-- `SHIFT_FLAG_SOURCE` (R116, R118). -/
  shiftFlagSource : FlagSource
  /-- `INSTR_PER_TICK` minus 1, so that every value is a positive `INSTR_PER_TICK` (R190; DESIGN CHOICE, safe; log 4). -/
  extraPerTick : Nat
  /-- `STRICT_UNKNOWN` (R85, R183). -/
  strictUnknown : Bool
  /-- `RESET_PC` (R14, R211). -/
  resetPc : Word
  /-- `FONT_BASE`, with `FONT_BASE + 80 <= 0x200` (R41; DESIGN CHOICE of the type, safe; log 22). -/
  fontBase : Fin 433
  /-- `FONT_DATA`, 80 bytes (R47). -/
  fontData : Vector Byte 80
  deriving DecidableEq, Repr

/-- `Q_SHIFT` of this machine: OPEN (P1), no value can be proved (log 2). -/
opaque Config.qShift : Quirk

/-- `Q_JUMP` of this machine: OPEN (P1), no value can be proved (log 2). -/
opaque Config.qJump : Quirk

/-- `Q_MEMINC` of this machine: OPEN (P1), no value can be proved (log 2). -/
opaque Config.qMemInc : Quirk

/-- `FONT_BASE` of this machine: OPEN (P2), only its range is known (log 2). -/
opaque Config.fontBase : Fin 433

/-- The key levels the outside presents, a free value for each index (P9; log 6). -/
opaque Config.keyLevels : Nat → Word

/-- The bytes the random source presents, a free value for each index (P8, 42_immediate.md R103; log 7). -/
opaque Config.randByte : Nat → Byte

end Sys2Proof
end

