-- ==== Sys2Proof/Machine/Defaults.lean ====
section
/-! DEFINITION. The parameters at `State.reset` (00_scope.md R5), the default font (20_memory.md R47) and what memory holds
after reset (10_state.md R24). -/

namespace Sys2Proof

/-- The glyphs 0 to 3 (20_memory.md R47). -/
def glyphs0to3 : Vector Byte 20 :=
  #v[0xF0, 0x90, 0x90, 0x90, 0xF0, 0x20, 0x60, 0x20, 0x20, 0x70, 0xF0, 0x10, 0xF0, 0x80, 0xF0, 0xF0, 0x10, 0xF0, 0x10, 0xF0]

/-- The glyphs 4 to 7 (20_memory.md R47). -/
def glyphs4to7 : Vector Byte 20 :=
  #v[0x90, 0x90, 0xF0, 0x10, 0x10, 0xF0, 0x80, 0xF0, 0x10, 0xF0, 0xF0, 0x80, 0xF0, 0x90, 0xF0, 0xF0, 0x10, 0x20, 0x40, 0x40]

/-- The glyphs 8 to B (20_memory.md R47). -/
def glyphs8toB : Vector Byte 20 :=
  #v[0xF0, 0x90, 0xF0, 0x90, 0xF0, 0xF0, 0x90, 0xF0, 0x10, 0xF0, 0xF0, 0x90, 0xF0, 0x90, 0x90, 0xE0, 0x90, 0xE0, 0x90, 0xE0]

/-- The glyphs C to F (20_memory.md R47). -/
def glyphsCtoF : Vector Byte 20 :=
  #v[0xF0, 0x80, 0x80, 0x80, 0xF0, 0xE0, 0x90, 0x90, 0x90, 0xE0, 0xF0, 0x80, 0xF0, 0x80, 0xF0, 0xF0, 0x80, 0xF0, 0x80, 0x80]

/-- The standard font: sixteen glyphs of five bytes, in digit order (20_memory.md R46, R47). -/
def fontDefault : Vector Byte 80 := glyphs0to3 ++ glyphs4to7 ++ glyphs8toB ++ glyphsCtoF

/-- The parameters of the machine `State.reset` describes: the OPEN ones are constants no proof can see (log 2), the others
the defaults of 00_scope.md R5 (log 3). -/
def Params.atReset : Params where
  qShift := Config.qShift
  qJump := Config.qJump
  qMemInc := Config.qMemInc
  shiftFlagSource := .preCopy
  extraPerTick := 0
  strictUnknown := false
  resetPc := 0x200
  fontBase := Config.fontBase
  fontData := fontDefault

/-- `INSTR_PER_TICK`, positive by construction (00_scope.md R5, 60_exceptions.md R190). -/
def Params.instrPerTick (p : Params) : Nat := p.extraPerTick + 1

/-- What an address reads as while nothing has been written there: the contents after reset, that is the font at
`FONT_BASE` and 0 everywhere else (10_state.md R24, 20_memory.md R41; log 5). -/
def Params.initByte (p : Params) (a : Nat) : Byte :=
  if 0x200 ≤ a then 0
  else if a < p.fontBase.val then 0
  else p.fontData[a - p.fontBase.val]?.getD 0

/-- An effective quirk flag: the combined option, when it is set, replaces the flag's own option (10_state.md R22). -/
def effectiveQuirk (combined : Option Quirk) (own : Quirk) : Quirk := combined.getD own

/-- The parameters after the four construction options are folded into the three flags (10_state.md R22). -/
def Params.withOptions (p : Params) (combined : Option Quirk) (shift jump memInc : Quirk) : Params :=
  { p with
    qShift := effectiveQuirk combined shift
    qJump := effectiveQuirk combined jump
    qMemInc := effectiveQuirk combined memInc }

end Sys2Proof
end

