-- ==== Sys2Proof/Machine/State.lean ====
section
/-! DEFINITION. The state of the core as plain data (10_state.md), the reasons a step can stop, and the state after
reset (10_state.md R24). -/

namespace Sys2Proof.Machine

/-- Memory as address and byte pairs: addresses strictly rising, and no entry equal to what an unlisted address reads as
(`Params.initByte`). -/
abbrev Memory := List Host.Cell

/-- The display buffer: 32 rows, row 0 topmost; bit 63 - x of a row is the pixel of column x, column 0 leftmost
(10_state.md R18; DESIGN CHOICE of the representation, safe; log 18). -/
abbrev Display := Vector (BitVec 64) 32

/-- The report of an UNKNOWN word: the outputs `unknown_ir` and `unknown_pc` while `unknown_opcode` is 1
(60_exceptions.md R183). -/
structure UnknownReport where
  ir : Word
  pc : Word
  deriving DecidableEq, Repr

/-- The machine's state.  Every field is plain data; INVENTORY.md lists the rule behind each. -/
structure State where
  /-- `V[0]` to `V[15]`; `VF` is `V[15]` (10_state.md R10, R12). -/
  v : Vector Byte 16
  /-- The index register `I` (R13). -/
  i : Word
  /-- The program counter `PC` (R14). -/
  pc : Word
  /-- How many call-stack slots are in use, 0 to 16 (R16). -/
  sp : Fin 17
  /-- The call-stack slots `STK[0]` to `STK[15]` (R16). -/
  stk : Vector Word 16
  /-- The delay timer `DT` (R17). -/
  dt : Byte
  /-- The sound timer `ST` (R17). -/
  st : Byte
  /-- The display buffer `DISP` (R18). -/
  disp : Display
  /-- The key latch `K`, bit k is key k (R19). -/
  k : Word
  /-- The memory `MEM` (R20). -/
  mem : Memory
  /-- The output `snd_expire`, held until the next frame tick (46_timers.md R156, 60_exceptions.md R190). -/
  sndExpire : Bool
  /-- The outputs `unknown_opcode`, `unknown_ir`, `unknown_pc`; `none` is all three 0 (60_exceptions.md R183). -/
  unknown : Option UnknownReport
  /-- The input `pause` (60_exceptions.md R198); a level the host sets (log 8). -/
  pause : Bool
  /-- The input `rst` (60_exceptions.md R196); a level the host sets (log 8). -/
  rst : Bool
  /-- The input `key_in` as the coming frame tick will sample it (60_exceptions.md R192; log 6). -/
  keyIn : Word
  /-- The input `rand_in` as the coming draw will read it (42_immediate.md R103; log 7). -/
  randIn : Byte
  /-- The quirk flags and parameters, fixed for a run (10_state.md R21, 00_scope.md R5; log 1). -/
  cfg : Params
  /-- The model's own field: a frame tick has been taken since reset (70_reset_and_hazards.md R214; log 15). -/
  started : Bool
  /-- The model's own field: the index of the next free input value (log 6, log 7). -/
  fresh : Nat
  deriving DecidableEq, Repr

/-- The five undefined situations of 93_implementation_defined.md U1 to U5; each names the instruction's address.  The
spec gives no behaviour for them and asks a model to fault: all SAFE (log 10). -/
inductive Fault where
  /-- U1: an access above 0xFFF, with the lowest such address, raised by fetch, DRW, LD B, LD [I] and LD Vx, [I]. -/
  | memOutOfRange (instrPc : Word) (addr : Nat)
  /-- U2: RET with an empty call stack, raised by RET. -/
  | stackUnderflow (instrPc : Word)
  /-- U3: CALL with sixteen entries on the call stack, raised by CALL. -/
  | stackOverflow (instrPc : Word)
  /-- U4: a key number above 15, raised by SKP and SKNP. -/
  | keyIndexOutOfRange (instrPc : Word) (key : Byte)
  /-- U5: a glyph number above 15, raised by LD F. -/
  | glyphIndexOutOfRange (instrPc : Word) (glyph : Byte)
  deriving DecidableEq, Repr

/-- Why a request has no meaning.  No instruction of the table is refused. -/
inductive Refusal where
  /-- An instruction with no meaning yet, raised by `exec`'s refused arms only; SAFE.  No arm is refused now. -/
  | notModelled (mnemonic : String)
  /-- A write through the load port once a frame tick has been taken, raised by the port operations `ldWrite` and
  `loadRom` only: the host has no such move (93_implementation_defined.md U7); SAFE (log 15). -/
  | loadDuringRun
  /-- A ROM of more than 3584 bytes, raised by the port operation `loadRom` only: the loader rejects it
  (70_reset_and_hazards.md R214); SAFE (log 17). -/
  | romTooLong
  deriving DecidableEq, Repr

/-- The machine at construction with parameters `p`: reset preceded by fixing the parameters (10_state.md R24,
70_reset_and_hazards.md R210).  The input ports hold the given levels. -/
def State.construct (p : Params) (keyIn : Word) (randIn : Byte) : State where
  v := Vector.replicate 16 0
  i := 0
  pc := p.resetPc
  sp := 0
  stk := Vector.replicate 16 0
  dt := 0
  st := 0
  disp := Vector.replicate 32 0
  k := 0
  mem := []
  sndExpire := false
  unknown := none
  pause := false
  rst := false
  keyIn := keyIn
  randIn := randIn
  cfg := p
  started := false
  fresh := 1

/-- The machine right after reset (10_state.md R24): the OPEN parameters and the levels at `key_in` and `rand_in` are
constants no proof can see. -/
def State.reset : State := State.construct Params.atReset (Config.keyLevels 0) (Config.randByte 0)

end Sys2Proof.Machine
end

