-- ==== Sys2Proof/Machine/Ops.lean ====
section
/-! DEFINITION. The named operations over the state: registers, memory, the call stack, the inputs and the timers
(00_scope.md R7, 10_state.md, 20_memory.md).  The hardware takes no exception and has no return from one (60_exceptions.md
R180, R184), so none stands here: the five undefined situations end in a `Fault` that names the instruction's address. -/

namespace Sys2Proof.Machine

/-- What a meaning answers. -/
abbrev Result := Host.Outcome State Fault Refusal

/-- Go on with a value, or stop with the fault that took its place. -/
def orFault {α : Type} (e : Except Fault α) (next : α → Result) : Result :=
  match e with
  | .error f => .fault f
  | .ok a => next a

/-! ### Registers -/

/-- `V[x]` (00_scope.md R7). -/
def State.reg (s : State) (x : Reg) : Byte := s.v[x.val]

/-- `V[x] <- b` (00_scope.md R7). -/
def State.setReg (s : State) (x : Reg) (b : Byte) : State := { s with v := s.v.set x.val b }

/-- The register that doubles as the flag: `VF = V[15]` (10_state.md R12). -/
def flagReg : Reg := 15

/-- `VF <- b`. -/
def State.setFlag (s : State) (b : Byte) : State := s.setReg flagReg b

/-- `PC <- w`. -/
def State.setPc (s : State) (w : Word) : State := { s with pc := w }

/-- `I <- w`. -/
def State.setI (s : State) (w : Word) : State := { s with i := w }

/-- `DT <- b`. -/
def State.setDt (s : State) (b : Byte) : State := { s with dt := b }

/-- `ST <- b`. -/
def State.setSt (s : State) (b : Byte) : State := { s with st := b }

/-- Replace the display buffer. -/
def State.setDisp (s : State) (d : Display) : State := { s with disp := d }

/-- `PC <- (PC + 2) mod 2^16`: the advance of a fetch, and `skip` (10_state.md R15, 00_scope.md R7). -/
def State.advance (s : State) : State := s.setPc (s.pc + 2)

/-- `PC <- (PC - 2) mod 2^16`: back onto the instruction being executed (45_keypad.md R142). -/
def State.rewind (s : State) : State := s.setPc (s.pc - 2)

/-- The address of the instruction being executed, whose fetch has already advanced `PC` (00_scope.md R9). -/
def State.instrPc (s : State) : Word := s.pc - 2

/-! ### Memory (20_memory.md) -/

/-- The number of bytes of `MEM` (00_scope.md R5). -/
def memSize : Nat := 4096

/-- The byte at `a`: the listed one, or what an unlisted address reads as. -/
def Memory.read (p : Params) (m : Memory) (a : Nat) : Byte :=
  match m.find? (fun c => c.1 == a) with
  | some c => c.2
  | none => p.initByte a

/-- Put a cell in its place in a list of rising addresses. -/
def Memory.place (a : Nat) (b : Byte) : Memory → Memory
  | [] => [(a, b)]
  | c :: rest => if a < c.1 then (a, b) :: c :: rest else c :: Memory.place a b rest

/-- Write `b` at `a`, keeping the canonical form: no entry holds what its address reads as unlisted. -/
def Memory.write (p : Params) (m : Memory) (a : Nat) (b : Byte) : Memory :=
  let others := m.filter (fun c => c.1 != a)
  if b = p.initByte a then others else Memory.place a b others

/-- The canonical form: addresses strictly rising and below 4096, and no entry equal to what an unlisted address reads as. -/
abbrev Memory.wf (p : Params) (m : Memory) : Prop :=
  m.Pairwise (fun c d => c.1 < d.1) ∧ ∀ c ∈ m, c.1 < memSize ∧ c.2 ≠ p.initByte c.1

/-- `MEM[a]`, for an address that exists. -/
def State.byteAt (s : State) (a : Nat) : Byte := Memory.read s.cfg s.mem a

/-- `MEM[a] <- b`, for an address that exists. -/
def State.writeByte (s : State) (a : Nat) (b : Byte) : State := { s with mem := Memory.write s.cfg s.mem a b }

/-- Write bytes at ascending addresses from `a` up (20_memory.md R45). -/
def State.writeBytes (s : State) (a : Nat) : List Byte → State
  | [] => s
  | b :: rest => (s.writeByte a b).writeBytes (a + 1) rest

/-- The instruction accesses the `n` bytes `I` to `I + n - 1`.  When one of them lies above 0xFFF the whole instruction is
undefined, the accesses before it included (20_memory.md R42, R45; log 20), and the fault names the lowest such address
(60_exceptions.md R182; log 11). -/
def State.withAccess (s : State) (n : Nat) (k : Result) : Result :=
  if n = 0 ∨ s.i.toNat + n ≤ memSize then k else .fault (.memOutOfRange s.instrPc (max s.i.toNat memSize))

/-! ### The call stack (10_state.md R16) -/

/-- Push: undefined when all sixteen slots are in use. -/
def State.push (s : State) (w : Word) : Except Fault State :=
  if h : s.sp.val < 16 then
    .ok { s with stk := s.stk.set s.sp.val w, sp := ⟨s.sp.val + 1, by omega⟩ }
  else .error (.stackOverflow s.instrPc)

/-- Pop: undefined when no slot is in use.  The slot keeps its value. -/
def State.pop (s : State) : Except Fault (State × Word) :=
  if h : 0 < s.sp.val then
    .ok ({ s with sp := ⟨s.sp.val - 1, by omega⟩ }, s.stk[s.sp.val - 1])
  else .error (.stackUnderflow s.instrPc)

/-! ### Inputs, timers, outputs -/

/-- The draw has read `rand_in`; the next one reads a byte that nothing constrains (42_immediate.md R103; log 7). -/
def State.drawn (s : State) : State := { s with randIn := Config.randByte s.fresh, fresh := s.fresh + 1 }

/-- `K <- key_in`; the next sample is a value that nothing constrains (10_state.md R19; log 6). -/
def State.sampleKeys (s : State) : State :=
  { s with k := s.keyIn, keyIn := Config.keyLevels s.fresh, fresh := s.fresh + 1 }

/-- `if T > 0 then T <- T - 1` (46_timers.md R155). -/
def countdown (t : Byte) : Byte := if t = 0 then 0 else t - 1

/-- The sound timer's part of a frame tick: the pulse from the value before the decrement, then the decrement
(46_timers.md R156, 60_exceptions.md R190). -/
def State.tickSound (s : State) : State := { s with sndExpire := s.st == 1, st := countdown s.st }

/-- The delay timer's part of a frame tick (60_exceptions.md R190). -/
def State.tickDelay (s : State) : State := { s with dt := countdown s.dt }

/-- Raise `unknown_opcode` for this frame tick, with the word and its address (60_exceptions.md R183; log 12). -/
def State.report (s : State) (w : Word) (a : Word) : State := { s with unknown := some ⟨w, a⟩ }

/-- The `unknown_*` outputs are 0 in a frame tick that executes no UNKNOWN word (60_exceptions.md R183), and the run has
begun (log 15). -/
def State.beginTick (s : State) : State := { s with unknown := none, started := true }

end Sys2Proof.Machine
end

