-- ==== Sys2Proof/Machine/Operands.lean ====
section
/-! DEFINITION. The operand forms: a register used as a key number or a glyph number, the register BNNN adds, the register
a shift shifts, the sprite's origin and rows, and the pressed key that FX0A reports. -/

namespace Sys2Proof.Machine

/-- The key number in `V[x]`: above 15 it is undefined (45_keypad.md R140, R141). -/
def State.keyOperand (s : State) (x : Reg) : Except Fault Nat :=
  if (s.reg x).toNat ≤ 15 then .ok (s.reg x).toNat else .error (.keyIndexOutOfRange s.instrPc (s.reg x))

/-- The glyph number in `V[x]`: above 15 it is undefined (47_index_memory.md R161). -/
def State.glyphOperand (s : State) (x : Reg) : Except Fault Nat :=
  if (s.reg x).toNat ≤ 15 then .ok (s.reg x).toNat else .error (.glyphIndexOutOfRange s.instrPc (s.reg x))

/-- The register BNNN adds: `V[0]` in legacy mode, the one named by `NNN[11:8]` in modern mode (40_control_flow.md R84). -/
def State.jumpReg (s : State) (nnn : Addr) : Reg :=
  match s.cfg.qJump with
  | .legacy => 0
  | .modern => (nnn.extractLsb' 8 4).toFin

/-- The register 8XY6 and 8XYE shift: `V[y]` in legacy mode, `V[x]` in modern mode (43_alu.md R116, R118). -/
def State.shiftReg (s : State) (x y : Reg) : Reg :=
  match s.cfg.qShift with
  | .legacy => y
  | .modern => x

/-- Level of key `j` in the latch (10_state.md R19). -/
def State.keyDown (s : State) (j : Nat) : Bool := s.k.getLsbD j

/-- The smallest pressed key, if any key is down (45_keypad.md R142). -/
def State.lowestKey (s : State) : Option Nat := (List.range 16).find? (fun j => s.keyDown j)

/-- The column of a sprite's origin, `V[x] mod 64` (44_display.md R131). -/
def State.originX (s : State) (x : Reg) : Nat := (s.reg x).toNat % 64

/-- The row of a sprite's origin, `V[y] mod 32` (44_display.md R131). -/
def State.originY (s : State) (y : Reg) : Nat := (s.reg y).toNat % 32

/-- How many rows of a sprite are drawn: those past the bottom edge are dropped and not read (44_display.md R131). -/
def State.spriteRows (s : State) (y : Reg) (n : RowCount) : Nat := min n.val (32 - s.originY y)

end Sys2Proof.Machine
end

