-- ==== Sys2Proof/Machine/Alu.lean ====
section
/-! DEFINITION. Register-to-register ALU instructions (43_alu.md). -/

namespace Sys2Proof.Machine

/-- The shape of 8XY1 to 8XY5 and 8XY7 (R119): both operands are read, then the result is written to `V[x]`, then the flag
to `VF`, so that with X = 15 the flag survives. -/
def aluOp (result flag : Byte → Byte → Byte) (x y : Reg) (s : State) : Result :=
  .next ((s.setReg x (result (s.reg x) (s.reg y))).setFlag (flag (s.reg x) (s.reg y)))

/-- The shape of 8XY6 and 8XYE (R116, R118).  `preCopy`: the flag from `V[x]` on entry, then the legacy copy, which reads
`V[y]` after `VF` was written, then the shift in place.  `postCopy`: the value shifted gives the result and then the
flag. -/
def shiftOp (shift flag : Byte → Byte) (x y : Reg) (s : State) : Result :=
  match s.cfg.shiftFlagSource with
  | .preCopy =>
    let flagged := s.setFlag (flag (s.reg x))
    let copied := flagged.setReg x (flagged.reg (s.shiftReg x y))
    .next (copied.setReg x (shift (copied.reg x)))
  | .postCopy =>
    let source := s.reg (s.shiftReg x y)
    .next ((s.setReg x (shift source)).setFlag (flag source))

/-- LD Vx, Vy (R110). -/
def execLdReg (x y : Reg) (s : State) : Result := .next (s.setReg x (s.reg y))

/-- OR Vx, Vy (R111). -/
def execOr (x y : Reg) (s : State) : Result := aluOp (fun a b => a ||| b) (fun _ _ => 0) x y s

/-- AND Vx, Vy (R112). -/
def execAnd (x y : Reg) (s : State) : Result := aluOp (fun a b => a &&& b) (fun _ _ => 0) x y s

/-- XOR Vx, Vy (R113). -/
def execXor (x y : Reg) (s : State) : Result := aluOp (fun a b => a ^^^ b) (fun _ _ => 0) x y s

/-- ADD Vx, Vy (R114). -/
def execAddReg (x y : Reg) (s : State) : Result := aluOp (fun a b => a + b) carryFlag x y s

/-- SUB Vx, Vy (R115). -/
def execSub (x y : Reg) (s : State) : Result := aluOp (fun a b => a - b) greaterFlag x y s

/-- SUBN Vx, Vy (R117). -/
def execSubn (x y : Reg) (s : State) : Result := aluOp (fun a b => b - a) (fun a b => greaterFlag b a) x y s

/-- SHR Vx, Vy (R116). -/
def execShr (x y : Reg) (s : State) : Result := shiftOp (fun a => a >>> 1) lowBitFlag x y s

/-- SHL Vx, Vy (R118). -/
def execShl (x y : Reg) (s : State) : Result := shiftOp (fun a => a <<< 1) highBitFlag x y s

end Sys2Proof.Machine
end

