-- ==== Sys2Proof/Machine/Control.lean ====
section
/-! DEFINITION. Control transfer, SYS and unknown words (40_control_flow.md).  `PC` is on entry the address of the next
sequential instruction (00_scope.md R9). -/

namespace Sys2Proof.Machine

/-- SYS nnn has no effect (R80). -/
def execSys (_nnn : Addr) (s : State) : Result := .next s

/-- RET (R81). -/
def execRet (s : State) : Result := orFault s.pop (fun r => .next (r.1.setPc r.2))

/-- JP nnn (R82). -/
def execJp (nnn : Addr) (s : State) : Result := .next (s.setPc (nnn.setWidth 16))

/-- CALL nnn (R83): the value pushed is the advanced `PC`. -/
def execCall (nnn : Addr) (s : State) : Result := orFault (s.push s.pc) (fun t => .next (t.setPc (nnn.setWidth 16)))

/-- JP V0, nnn (R84): the sum is not masked to 12 bits. -/
def execJpOffset (nnn : Addr) (s : State) : Result :=
  .next (s.setPc (nnn.setWidth 16 + (s.reg (s.jumpReg nnn)).setWidth 16))

/-- An UNKNOWN word is a no-op (R85), reported to the host when `STRICT_UNKNOWN` is set (60_exceptions.md R183). -/
def execUnknown (w : Word) (s : State) : Result :=
  .next (if s.cfg.strictUnknown then s.report w s.instrPc else s)

end Sys2Proof.Machine
end

