-- ==== Sys2Proof/Machine/Immediate.lean ====
section
/-! DEFINITION. Load and add immediate, load index, random (42_immediate.md). -/

namespace Sys2Proof.Machine

/-- LD Vx, nn (R100). -/
def execLdImm (x : Reg) (nn : Byte) (s : State) : Result := .next (s.setReg x nn)

/-- ADD Vx, nn (R101): the sum wraps and no flag is written. -/
def execAddImm (x : Reg) (nn : Byte) (s : State) : Result := .next (s.setReg x (s.reg x + nn))

/-- LD I, nnn (R102). -/
def execLdI (nnn : Addr) (s : State) : Result := .next (s.setI (nnn.setWidth 16))

/-- RND Vx, nn (R103): the draw is the byte at `rand_in`, which nothing constrains (log 7). -/
def execRnd (x : Reg) (nn : Byte) (s : State) : Result := .next ((s.setReg x (s.randIn &&& nn)).drawn)

end Sys2Proof.Machine
end

