-- ==== Sys2Proof/Machine/Index.lean ====
section
/-! DEFINITION. Index arithmetic, font address, BCD and block register transfer (47_index_memory.md). -/

namespace Sys2Proof.Machine

/-- `(I + n) mod 4096` as the 16-bit value `I` holds (10_state.md R13). -/
def State.indexPlus (s : State) (n : Nat) : Word := BitVec.ofNat 16 ((s.i.toNat + n) % memSize)

/-- The side effect of FX55 and FX65 on `I`: `I + X + 1` in legacy mode, none in modern mode (R163, R164). -/
def State.afterTransfer (s : State) (x : Reg) : State :=
  match s.cfg.qMemInc with
  | .legacy => s.setI (s.indexPlus (x.val + 1))
  | .modern => s

/-- ADD I, Vx (R160): the addend is read before `VF` is written. -/
def execAddIVx (x : Reg) (s : State) : Result :=
  .next ((s.setI (s.indexPlus (s.reg x).toNat)).setFlag (indexFlag s.i (s.reg x)))

/-- LD F, Vx (R161). -/
def execLdFVx (x : Reg) (s : State) : Result :=
  orFault (s.glyphOperand x) (fun d => .next (s.setI (BitVec.ofNat 16 (s.cfg.fontBase.val + 5 * d))))

/-- The hundreds, tens and units digits of a byte, one a byte (R162). -/
def bcdDigits (b : Byte) : List Byte :=
  [BitVec.ofNat 8 (b.toNat / 100), BitVec.ofNat 8 (b.toNat / 10 % 10), BitVec.ofNat 8 (b.toNat % 10)]

/-- LD B, Vx (R162). -/
def execLdBVx (x : Reg) (s : State) : Result :=
  s.withAccess 3 (.next (s.writeBytes s.i.toNat (bcdDigits (s.reg x))))

/-- LD [I], Vx (R163): `V[0]` to `V[x]` at ascending addresses from `I`. -/
def execLdMemVx (x : Reg) (s : State) : Result :=
  s.withAccess (x.val + 1) (.next ((s.writeBytes s.i.toNat (s.v.toList.take (x.val + 1))).afterTransfer x))

/-- `V[0]` to `V[x]` loaded from ascending addresses from `I`; the registers above are unchanged (R164). -/
def State.loadRegs (s : State) (x : Reg) : State :=
  { s with v := Vector.ofFn (fun r : Reg => if r ≤ x then s.byteAt (s.i.toNat + r.val) else s.reg r) }

/-- LD Vx, [I] (R164). -/
def execLdVxMem (x : Reg) (s : State) : Result :=
  s.withAccess (x.val + 1) (.next ((s.loadRegs x).afterTransfer x))

end Sys2Proof.Machine
end

