-- ==== Sys2Proof/Machine/Skip.lean ====
section
/-! DEFINITION. Compare-and-skip instructions (41_skip.md). -/

namespace Sys2Proof.Machine

/-- Skip the next instruction when the condition holds (00_scope.md R7, `skip`). -/
def skipIf (c : Bool) (s : State) : Result := .next (if c then s.advance else s)

/-- SE Vx, nn (R90). -/
def execSeImm (x : Reg) (nn : Byte) (s : State) : Result := skipIf (s.reg x == nn) s

/-- SNE Vx, nn (R91). -/
def execSneImm (x : Reg) (nn : Byte) (s : State) : Result := skipIf (s.reg x != nn) s

/-- SE Vx, Vy (R92). -/
def execSeReg (x y : Reg) (s : State) : Result := skipIf (s.reg x == s.reg y) s

/-- SNE Vx, Vy (R93). -/
def execSneReg (x y : Reg) (s : State) : Result := skipIf (s.reg x != s.reg y) s

end Sys2Proof.Machine
end

