-- ==== Sys2Proof/Machine/Keypad.lean ====
section
/-! DEFINITION. Keypad instructions (45_keypad.md). -/

namespace Sys2Proof.Machine

/-- SKP Vx (R140). -/
def execSkp (x : Reg) (s : State) : Result := orFault (s.keyOperand x) (fun k => skipIf (s.keyDown k) s)

/-- SKNP Vx (R141). -/
def execSknp (x : Reg) (s : State) : Result := orFault (s.keyOperand x) (fun k => skipIf (!s.keyDown k) s)

/-- LD Vx, K (R142): back onto this same instruction while no key is down, else the smallest pressed key. -/
def execLdVxK (x : Reg) (s : State) : Result :=
  .next (match s.lowestKey with
    | none => s.rewind
    | some k => s.setReg x (BitVec.ofNat 8 k))

end Sys2Proof.Machine
end

