-- ==== Sys2Proof/Machine/Screen.lean ====
section
/-! DEFINITION. Display instructions (44_display.md). -/

namespace Sys2Proof.Machine

/-- `DISP[y][x]` (10_state.md R18): column 0 is the most significant bit of a row. -/
def Display.pixel (d : Display) (y x : Nat) : Bool := (d[y]?.getD 0).getMsbD x

/-- CLS (R130). -/
def execCls (s : State) : Result := .next (s.setDisp (Vector.replicate 32 0))

/-- A sprite's row byte as the pixels of a display row, bit 7 at column `x0`: bits past column 63 are dropped, not wrapped
(R131, right edge). -/
def spriteMask (b : Byte) (x0 : Nat) : BitVec 64 := (b.setWidth 64 <<< 56) >>> x0

/-- The sprite's pixels in display row `row`: row `r` of the sprite is the byte at `I + r` and lies at row `y0 + r` (R131).
Rows that are not drawn hold none. -/
def State.spriteOn (s : State) (x y : Reg) (n : RowCount) (row : Nat) : BitVec 64 :=
  if s.originY y ≤ row ∧ row < s.originY y + s.spriteRows y n then
    spriteMask (s.byteAt (s.i.toNat + (row - s.originY y))) (s.originX x)
  else 0

/-- Some set sprite bit meets a set pixel (R131, collision). -/
def State.collides (s : State) (x y : Reg) (n : RowCount) : Bool :=
  (List.finRange 32).any (fun row => s.disp[row] &&& s.spriteOn x y n row.val != 0)

/-- The display after the sprite is XORed onto it.  The loops of R131 touch every pixel at most once, so all rows are
written at once (log 19). -/
def State.blit (s : State) (x y : Reg) (n : RowCount) : Display :=
  Vector.ofFn (fun row : Fin 32 => s.disp[row] ^^^ s.spriteOn x y n row.val)

/-- DRW Vx, Vy, n (R131). -/
def execDrw (x y : Reg) (n : RowCount) (s : State) : Result :=
  s.withAccess (s.spriteRows y n) (.next ((s.setDisp (s.blit x y n)).setFlag (flagOf (s.collides x y n))))

end Sys2Proof.Machine
end

