-- ==== Sys2Proof/Machine/Tick.lean ====
section
/-! DEFINITION. Fetching, one instruction step, the frame tick, reset and the ports (10_state.md R15, 60_exceptions.md R190
to R198, 70_reset_and_hazards.md). -/

namespace Sys2Proof.Machine

/-- The instruction word at `PC`, high byte first (20_memory.md R43).  A byte above 0xFFF makes the fetch undefined
(20_memory.md R42); `PC` has not been advanced yet, so the instruction's address is `PC` itself. -/
def fetch (s : State) : Except Fault Word :=
  if s.pc.toNat + 2 ≤ memSize then .ok (wordOfBytes (s.byteAt s.pc.toNat) (s.byteAt (s.pc.toNat + 1)))
  else .error (.memOutOfRange s.pc (max s.pc.toNat memSize))

/-- `Step()`: fetch, advance, execute (10_state.md R15). -/
def cycle (s : State) : Result := orFault (fetch s) (fun ir => exec (decodeWord ir) s.advance)

/-- Go on from a next state; a fault or a refusal stays. -/
def andThen (r : Result) (k : State → Result) : Result :=
  match r with
  | .next t => k t
  | .fault f => .fault f
  | .refused f => .refused f

/-- `repeat n times: Step()` (60_exceptions.md R190). -/
def cycles : Nat → State → Result
  | 0, s => .next s
  | n + 1, s => andThen (cycle s) (cycles n)

/-- What a frame tick does before its instructions: sound timer, keys, delay timer, in that order (60_exceptions.md R190). -/
def State.prologue (s : State) : State := s.beginTick.tickSound.sampleKeys.tickDelay

/-- The reset transition: every piece of state to its reset value, the parameters and the levels of the input ports left as
they are (60_exceptions.md R196, 10_state.md R24; log 14). -/
def State.assertReset (s : State) : State :=
  { State.construct s.cfg s.keyIn s.randIn with pause := s.pause, rst := s.rst, fresh := s.fresh }

/-- The frame tick (60_exceptions.md R190).  While `rst` is asserted no frame tick is taken and the state stays at its reset
values (R196; log 14); while `pause` is 1 nothing at all happens (R198). -/
def frameTick (s : State) : Result :=
  if s.rst then .next s.assertReset
  else if s.pause then .next s
  else cycles s.cfg.instrPerTick s.prologue

/-! ### The host's side of the ports (60_exceptions.md R195) -/

/-- The host sets the levels at `key_in`. -/
def State.driveKeys (s : State) (levels : Word) : State := { s with keyIn := levels }

/-- The host sets the level at `pause`. -/
def State.drivePause (s : State) (level : Bool) : State := { s with pause := level }

/-- The host sets the level at `rst`.  Asserting it is the reset transition itself, at once and without a `tick` event
(60_exceptions.md R196, 70_reset_and_hazards.md R210); lowering it only lets the frame ticks run again (log 14). -/
def State.driveRst (s : State) (level : Bool) : State :=
  if level then { s.assertReset with rst := true } else { s with rst := false }

/-- The outside sets the byte at `rand_in`. -/
def State.driveRand (s : State) (b : Byte) : State := { s with randIn := b }

/-- The load port with `ld_we = 1`: `MEM[ld_addr] <- ld_data` (60_exceptions.md R197).  Once a frame tick has been taken the
host has no such move (93_implementation_defined.md U7; log 15). -/
def ldWrite (addr : Addr) (data : Byte) (s : State) : Result :=
  if s.started then .refused .loadDuringRun else .next (s.writeByte addr.toNat data)

/-- The address the ROM's first byte is loaded at (20_memory.md R41). -/
def romBase : Nat := 0x200

/-- The most bytes a ROM may have, 4096 - 0x200 (20_memory.md R41). -/
def romLimit : Nat := 3584

/-- The host writes a ROM through the load port to 0x200, 0x201, ... in order (70_reset_and_hazards.md R214); a longer one
than 3584 bytes is rejected by the loader (log 17). -/
def loadRom (rom : List Byte) (s : State) : Result :=
  if romLimit < rom.length then .refused .romTooLong
  else if s.started then .refused .loadDuringRun
  else .next (s.writeBytes romBase rom)

/-- The output `unknown_opcode` (60_exceptions.md R183). -/
def State.unknownOpcode (s : State) : Bool := s.unknown.isSome

/-- The output `unknown_ir`, 0 without a report (60_exceptions.md R183). -/
def State.unknownIr (s : State) : Word := (s.unknown.map UnknownReport.ir).getD 0

/-- The output `unknown_pc`, 0 without a report (60_exceptions.md R183). -/
def State.unknownPc (s : State) : Word := (s.unknown.map UnknownReport.pc).getD 0

/-- What the port `dbg_state` shows (60_exceptions.md R195, R198). -/
structure DebugView where
  v : Vector Byte 16
  i : Word
  pc : Word
  sp : Fin 17
  stk : Vector Word 16
  dt : Byte
  st : Byte
  deriving DecidableEq, Repr

/-- The read-only view for the debug dump (60_exceptions.md R198). -/
def State.dbgState (s : State) : DebugView := ⟨s.v, s.i, s.pc, s.sp, s.stk, s.dt, s.st⟩

/-- `s` with the two bytes of a word at `PC`, high byte first, and with no reset or pause asserted, so that the next frame
tick fetches that word first (log 17). -/
def placeWord (s : State) (w : Word) : State :=
  { s.writeBytes s.pc.toNat [highByte w, lowByte w] with rst := false, pause := false }

end Sys2Proof.Machine
end

