-- ==== Sys2Proof/Machine/Step.lean ====
section
/-! DEFINITION. The machine's step, the frame tick (60_exceptions.md R190), and the placing of an instruction where the next
step fetches it. -/

namespace Sys2Proof.Machine

/-- One step is one frame tick (00_scope.md section 6 point 1, 60_exceptions.md R190; log 9). -/
def step (s : State) : Host.Outcome State Fault Refusal := frameTick s

/-- `s` with the instruction of a table row stored where the next step fetches, its bits numbered as opcode_table.json
numbers them. -/
def State.withFetchWord (s : State) (nbits w : Nat) : State := placeWord s (tableWord nbits w)

end Sys2Proof.Machine
end

