-- ==== Sys2Proof/Safety.lean ====
section
/-! DEFINITION. The terms the claims use: the limits software must stay within (70_reset_and_hazards.md R226), what each
instruction may write (10_state.md R11, R12, R25), where it leaves `PC` (10_state.md R15), when it does not look at the quirk
flags (70_reset_and_hazards.md R225), the pixels of a sprite (44_display.md R131), and the invariant every step keeps. -/

namespace Sys2Proof.Machine

/-! ### Words by their nibbles (30_encoding.md R61) -/

/-- The word of format `NNN`. -/
def wordNNN (op nnn : Nat) : Word := BitVec.ofNat 16 (4096 * op + nnn)

/-- The word of format `XNN` or `X`. -/
def wordXNN (op x nn : Nat) : Word := BitVec.ofNat 16 (4096 * op + 256 * x + nn)

/-- The word of format `XY` or `XYN`. -/
def wordXYN (op x y n : Nat) : Word := BitVec.ofNat 16 (4096 * op + 256 * x + 16 * y + n)

/-! ### Limits (70_reset_and_hazards.md R226) -/

/-- Every address `I` to `I + n - 1` exists. -/
def State.spans (s : State) (n : Nat) : Bool := n == 0 || s.i.toNat + n ≤ 4096

/-- Executing the instruction stays within the limits the hardware does not check. -/
def withinLimits (i : Instr) (s : State) : Bool :=
  match i with
  | .cls => true
  | .ret => 0 < s.sp.val
  | .sys _ => true
  | .jp _ => true
  | .call _ => s.sp.val < 16
  | .seImm _ _ => true
  | .sneImm _ _ => true
  | .seReg _ _ => true
  | .ldImm _ _ => true
  | .addImm _ _ => true
  | .ldReg _ _ => true
  | .orReg _ _ => true
  | .andReg _ _ => true
  | .xorReg _ _ => true
  | .addReg _ _ => true
  | .sub _ _ => true
  | .shr _ _ => true
  | .subn _ _ => true
  | .shl _ _ => true
  | .sneReg _ _ => true
  | .ldI _ => true
  | .jpOffset _ => true
  | .rnd _ _ => true
  | .drw _ y n => s.spans (min n.val (32 - (s.reg y).toNat % 32))
  | .skp x => (s.reg x).toNat ≤ 15
  | .sknp x => (s.reg x).toNat ≤ 15
  | .ldVxDt _ => true
  | .ldVxK _ => true
  | .ldDtVx _ => true
  | .ldStVx _ => true
  | .addIVx _ => true
  | .ldFVx x => (s.reg x).toNat ≤ 15
  | .ldBVx _ => s.spans 3
  | .ldMemVx x => s.spans (x.val + 1)
  | .ldVxMem x => s.spans (x.val + 1)
  | .unknown _ => true

/-! ### What an instruction may write -/

/-- The parts of the state, the general registers and `PC` apart. -/
inductive Part where
  | index
  | stackCount
  | stackSlots
  | delay
  | sound
  | display
  | memory
  | random
  | report
  deriving DecidableEq, Repr

/-- The parts an instruction may write (10_state.md R13, R16, R17, R18, R25, 20_memory.md R45). -/
def partsWritten : Instr → List Part
  | .cls => [.display]
  | .ret => [.stackCount]
  | .sys _ => []
  | .jp _ => []
  | .call _ => [.stackCount, .stackSlots]
  | .seImm _ _ => []
  | .sneImm _ _ => []
  | .seReg _ _ => []
  | .ldImm _ _ => []
  | .addImm _ _ => []
  | .ldReg _ _ => []
  | .orReg _ _ => []
  | .andReg _ _ => []
  | .xorReg _ _ => []
  | .addReg _ _ => []
  | .sub _ _ => []
  | .shr _ _ => []
  | .subn _ _ => []
  | .shl _ _ => []
  | .sneReg _ _ => []
  | .ldI _ => [.index]
  | .jpOffset _ => []
  | .rnd _ _ => [.random]
  | .drw _ _ _ => [.display]
  | .skp _ => []
  | .sknp _ => []
  | .ldVxDt _ => []
  | .ldVxK _ => []
  | .ldDtVx _ => [.delay]
  | .ldStVx _ => [.sound]
  | .addIVx _ => [.index]
  | .ldFVx _ => [.index]
  | .ldBVx _ => [.memory]
  | .ldMemVx _ => [.index, .memory]
  | .ldVxMem _ => [.index]
  | .unknown _ => [.report]

/-- The general registers an instruction may write: its destination, and `VF` where the instruction writes the flag
(10_state.md R11, R12). -/
def writesReg (i : Instr) (r : Reg) : Bool :=
  match i with
  | .cls => false
  | .ret => false
  | .sys _ => false
  | .jp _ => false
  | .call _ => false
  | .seImm _ _ => false
  | .sneImm _ _ => false
  | .seReg _ _ => false
  | .ldImm x _ => r == x
  | .addImm x _ => r == x
  | .ldReg x _ => r == x
  | .orReg x _ => r == x || r == 15
  | .andReg x _ => r == x || r == 15
  | .xorReg x _ => r == x || r == 15
  | .addReg x _ => r == x || r == 15
  | .sub x _ => r == x || r == 15
  | .shr x _ => r == x || r == 15
  | .subn x _ => r == x || r == 15
  | .shl x _ => r == x || r == 15
  | .sneReg _ _ => false
  | .ldI _ => false
  | .jpOffset _ => false
  | .rnd x _ => r == x
  | .drw _ _ _ => r == 15
  | .skp _ => false
  | .sknp _ => false
  | .ldVxDt x => r == x
  | .ldVxK x => r == x
  | .ldDtVx _ => false
  | .ldStVx _ => false
  | .addIVx _ => r == 15
  | .ldFVx _ => false
  | .ldBVx _ => false
  | .ldMemVx _ => false
  | .ldVxMem x => r ≤ x
  | .unknown _ => false

/-- `PC` after the instruction, from the `PC` that the fetch has advanced (the table of 10_state.md R15). -/
def pcAfter (i : Instr) (s : State) : Word :=
  match i with
  | .cls => s.pc
  | .ret => s.stk[s.sp.val - 1]?.getD 0
  | .sys _ => s.pc
  | .jp nnn => BitVec.ofNat 16 nnn.toNat
  | .call nnn => BitVec.ofNat 16 nnn.toNat
  | .seImm x nn => if s.reg x = nn then s.pc + 2 else s.pc
  | .sneImm x nn => if s.reg x ≠ nn then s.pc + 2 else s.pc
  | .seReg x y => if s.reg x = s.reg y then s.pc + 2 else s.pc
  | .ldImm _ _ => s.pc
  | .addImm _ _ => s.pc
  | .ldReg _ _ => s.pc
  | .orReg _ _ => s.pc
  | .andReg _ _ => s.pc
  | .xorReg _ _ => s.pc
  | .addReg _ _ => s.pc
  | .sub _ _ => s.pc
  | .shr _ _ => s.pc
  | .subn _ _ => s.pc
  | .shl _ _ => s.pc
  | .sneReg x y => if s.reg x ≠ s.reg y then s.pc + 2 else s.pc
  | .ldI _ => s.pc
  | .jpOffset nnn => BitVec.ofNat 16 (nnn.toNat + (s.reg (if s.cfg.qJump = .legacy then 0 else Fin.ofNat 16 (nnn.toNat / 256))).toNat)
  | .rnd _ _ => s.pc
  | .drw _ _ _ => s.pc
  | .skp x => if s.k.getLsbD (s.reg x).toNat = true then s.pc + 2 else s.pc
  | .sknp x => if s.k.getLsbD (s.reg x).toNat = false then s.pc + 2 else s.pc
  | .ldVxDt _ => s.pc
  | .ldVxK _ => if s.k = 0 then s.pc - 2 else s.pc
  | .ldDtVx _ => s.pc
  | .ldStVx _ => s.pc
  | .addIVx _ => s.pc
  | .ldFVx _ => s.pc
  | .ldBVx _ => s.pc
  | .ldMemVx _ => s.pc
  | .ldVxMem _ => s.pc
  | .unknown _ => s.pc

/-- The instruction does the same under every setting of the three quirk flags (70_reset_and_hazards.md R225). -/
def quirkFree (i : Instr) (s : State) : Bool :=
  match i with
  | .cls => true
  | .ret => true
  | .sys _ => true
  | .jp _ => true
  | .call _ => true
  | .seImm _ _ => true
  | .sneImm _ _ => true
  | .seReg _ _ => true
  | .ldImm _ _ => true
  | .addImm _ _ => true
  | .ldReg _ _ => true
  | .orReg _ _ => true
  | .andReg _ _ => true
  | .xorReg _ _ => true
  | .addReg _ _ => true
  | .sub _ _ => true
  | .shr x y => x == y
  | .subn _ _ => true
  | .shl x y => x == y
  | .sneReg _ _ => true
  | .ldI _ => true
  | .jpOffset nnn => s.reg 0 == s.reg (Fin.ofNat 16 (nnn.toNat / 256))
  | .rnd _ _ => true
  | .drw _ _ _ => true
  | .skp _ => true
  | .sknp _ => true
  | .ldVxDt _ => true
  | .ldVxK _ => true
  | .ldDtVx _ => true
  | .ldStVx _ => true
  | .addIVx _ => true
  | .ldFVx _ => true
  | .ldBVx _ => true
  | .ldMemVx _ => false
  | .ldVxMem _ => false
  | .unknown _ => true

/-- The state with other quirk flags. -/
def State.withQuirks (s : State) (shift jump memInc : Quirk) : State :=
  { s with cfg := { s.cfg with qShift := shift, qJump := jump, qMemInc := memInc } }

/-! ### Sprites (44_display.md R131) -/

/-- The sprite of DRW sets a bit at a place of the display: bit `7 - c` of its row `r` is 1, and the place is `c` columns and
`r` rows from the origin.  Places beyond the display's edges are never asked about: they are clipped. -/
def SpriteBit (s : State) (x y : Reg) (n : RowCount) (row col : Nat) : Prop :=
  ∃ r c, r < n.val ∧ c < 8 ∧ row = (s.reg y).toNat % 32 + r ∧ col = (s.reg x).toNat % 64 + c ∧
    (s.byteAt (s.i.toNat + r)).getLsbD (7 - c) = true

/-! ### Reset (10_state.md R24) -/

/-- Every piece of state has its reset value, for the state's own parameters (10_state.md R24, 70_reset_and_hazards.md R210,
R212).  `Params.initByte` is the font at `FONT_BASE` and 0 everywhere else. -/
structure State.AtReset (s : State) : Prop where
  regs : ∀ r : Reg, s.reg r = 0
  index : s.i = 0
  counter : s.pc = s.cfg.resetPc
  stackCount : s.sp = 0
  stackSlots : ∀ k : Fin 16, s.stk[k.val] = 0
  delay : s.dt = 0
  sound : s.st = 0
  pixels : ∀ row col, row < 32 → col < 64 → s.disp.pixel row col = false
  keys : s.k = 0
  memory : ∀ a, s.byteAt a = s.cfg.initByte a
  pulse : s.sndExpire = false
  report : s.unknownOpcode = false

/-! ### The invariant -/

/-- What every step keeps: memory in canonical form; `I` below 2^12 (10_state.md R13); `PC` at most 0x10FE, the largest
target of BNNN (40_control_flow.md R84); every return address in use at most 0x1000 (40_control_flow.md R81); no report
unless `STRICT_UNKNOWN` is set (60_exceptions.md R183); and a `RESET_PC` no larger than `PC` can be. -/
structure State.Inv (s : State) : Prop where
  memory : Memory.wf s.cfg s.mem
  index : s.i.toNat < 4096
  counter : s.pc.toNat ≤ 0x10FE
  stack : ∀ k : Fin 16, k.val < s.sp.val → s.stk[k.val].toNat ≤ 0x1000
  quiet : s.cfg.strictUnknown = false → s.unknown = none
  entry : s.cfg.resetPc.toNat ≤ 0x10FE

end Sys2Proof.Machine
end

