-- ==== Sys2Proof/Certificates/Slice0/Obligations.lean ====
section
/-! DEFINITION. The statements for the provers, each about a rule of spec/.  In a statement about `exec`, `s.pc` is the `PC` the
fetch has already advanced, so the instruction's own address is `s.pc - 2` (00_scope.md R9). -/

open Sys2Proof Sys2Proof.Machine

/-! ### Control transfer (40_control_flow.md) -/

/-- R80: SYS does nothing, whatever the parameters. -/
def Obligations.SysHasNoEffect : Prop :=
  ∀ (nnn : Addr) (s : State), nnn ≠ 0x0E0 → nnn ≠ 0x0EE →
    decodeWord (wordNNN 0x0 nnn.toNat) = .sys nnn ∧ exec (.sys nnn) s = .next s

/-- R81: RET goes to the newest return address, uncounts it and keeps its slot; with an empty stack it is the fault
`stackUnderflow`.  In a state that meets the invariant the address is at most 0x1000. -/
def Obligations.RetPopsTheReturnAddress : Prop :=
  decodeWord 0x00EE = .ret ∧
  ∀ s : State,
    (∀ k : Fin 16, s.sp.val = k.val + 1 →
      (∃ t, exec .ret s = .next t ∧ t.pc = s.stk[k.val] ∧ t.sp.val = k.val ∧ t = { s with pc := t.pc, sp := t.sp }) ∧
      (s.Inv → s.stk[k.val].toNat ≤ 0x1000)) ∧
    (s.sp.val = 0 → exec .ret s = .fault (.stackUnderflow (s.pc - 2)))

/-- R82: JP sets `PC` to the constant and changes nothing else. -/
def Obligations.JpSetsPc : Prop :=
  ∀ (nnn : Addr) (s : State),
    decodeWord (wordNNN 0x1 nnn.toNat) = .jp nnn ∧
    ∃ t, exec (.jp nnn) s = .next t ∧ t.pc.toNat = nnn.toNat ∧ t = { s with pc := t.pc }

/-- R83: CALL stores the advanced `PC` in the next slot, counts it and jumps; with sixteen entries it is the fault
`stackOverflow`. -/
def Obligations.CallPushesTheReturnAddress : Prop :=
  ∀ (nnn : Addr) (s : State),
    decodeWord (wordNNN 0x2 nnn.toNat) = .call nnn ∧
    (∀ k : Fin 16, s.sp.val = k.val →
      ∃ t, exec (.call nnn) s = .next t ∧ t.stk[k.val] = s.pc ∧
        (∀ j : Fin 16, j ≠ k → t.stk[j.val] = s.stk[j.val]) ∧
        t.sp.val = k.val + 1 ∧ t.pc.toNat = nnn.toNat ∧ t = { s with stk := t.stk, sp := t.sp, pc := t.pc }) ∧
    (s.sp.val = 16 → exec (.call nnn) s = .fault (.stackOverflow (s.pc - 2)))

/-- R84: BNNN adds `V0` (legacy) or the register named by `NNN[11:8]` (modern) to the constant; the sum fits 16 bits and is
not masked. -/
def Obligations.JumpWithOffsetAddsARegister : Prop :=
  ∀ (nnn : Addr) (x : Reg) (s : State), x.val = nnn.toNat / 256 →
    decodeWord (wordNNN 0xB nnn.toNat) = .jpOffset nnn ∧
    ∃ t, exec (.jpOffset nnn) s = .next t ∧ t = { s with pc := t.pc } ∧
      (s.cfg.qJump = .legacy → t.pc.toNat = nnn.toNat + (s.reg 0).toNat) ∧
      (s.cfg.qJump = .modern → t.pc.toNat = nnn.toNat + (s.reg x).toNat)

/-- R85: an UNKNOWN word changes nothing; with `STRICT_UNKNOWN` the word and its address are reported to the host. -/
def Obligations.UnknownWordIsANoOp : Prop :=
  ∀ (w : Word) (s : State), isUnknownWord w = true →
    decodeWord w = .unknown w ∧
    (s.cfg.strictUnknown = false → exec (.unknown w) s = .next s) ∧
    (s.cfg.strictUnknown = true →
      ∃ t, exec (.unknown w) s = .next t ∧ t.unknownOpcode = true ∧ t.unknownIr = w ∧ t.unknownPc = s.pc - 2 ∧
        t = { s with unknown := t.unknown })

/-- R183 at one instruction a tick: the `unknown_*` outputs of a frame tick are 1, the word and its address when the tick
executes an UNKNOWN word under `STRICT_UNKNOWN`, and 0 in every other frame tick. -/
def Obligations.UnknownReportLastsOneTick : Prop :=
  ∀ (s t : State) (w : Word), s.rst = false → s.pause = false → s.cfg.extraPerTick = 0 →
    w = wordOfBytes (s.byteAt s.pc.toNat) (s.byteAt (s.pc.toNat + 1)) → step s = .next t →
    (isUnknownWord w = true ∧ s.cfg.strictUnknown = true →
      t.unknownOpcode = true ∧ t.unknownIr = w ∧ t.unknownPc = s.pc) ∧
    (¬ (isUnknownWord w = true ∧ s.cfg.strictUnknown = true) →
      t.unknownOpcode = false ∧ t.unknownIr = 0 ∧ t.unknownPc = 0)

/-! ### Compare and skip (41_skip.md) -/

/-- R90, R91: SE and SNE with a constant skip 2 bytes more exactly when the register equals, or differs from, the constant;
they write nothing but `PC`. -/
def Obligations.SkipsOnAConstant : Prop :=
  ∀ (x : Reg) (nn : Byte) (s : State),
    decodeWord (wordXNN 0x3 x.val nn.toNat) = .seImm x nn ∧
    decodeWord (wordXNN 0x4 x.val nn.toNat) = .sneImm x nn ∧
    exec (.seImm x nn) s = .next { s with pc := if s.reg x = nn then s.pc + 2 else s.pc } ∧
    exec (.sneImm x nn) s = .next { s with pc := if s.reg x = nn then s.pc else s.pc + 2 }

/-- R92, R93: SE and SNE with two registers skip 2 bytes more exactly when the registers are equal, or differ; they write
nothing but `PC`. -/
def Obligations.SkipsOnTwoRegisters : Prop :=
  ∀ (x y : Reg) (s : State),
    decodeWord (wordXYN 0x5 x.val y.val 0) = .seReg x y ∧
    decodeWord (wordXYN 0x9 x.val y.val 0) = .sneReg x y ∧
    exec (.seReg x y) s = .next { s with pc := if s.reg x = s.reg y then s.pc + 2 else s.pc } ∧
    exec (.sneReg x y) s = .next { s with pc := if s.reg x = s.reg y then s.pc else s.pc + 2 }

/-! ### Immediates (42_immediate.md) -/

/-- R100: LD Vx, nn. -/
def Obligations.LoadConstant : Prop :=
  ∀ (x : Reg) (nn : Byte) (s : State),
    decodeWord (wordXNN 0x6 x.val nn.toNat) = .ldImm x nn ∧
    ∃ t, exec (.ldImm x nn) s = .next t ∧ t = { s with v := t.v } ∧
      ∀ r : Reg, t.reg r = if r = x then nn else s.reg r

/-- R101: ADD Vx, nn wraps modulo 256 and writes no flag. -/
def Obligations.AddConstantWritesNoFlag : Prop :=
  ∀ (x : Reg) (nn : Byte) (s : State),
    decodeWord (wordXNN 0x7 x.val nn.toNat) = .addImm x nn ∧
    ∃ t, exec (.addImm x nn) s = .next t ∧ t = { s with v := t.v } ∧
      (t.reg x).toNat = ((s.reg x).toNat + nn.toNat) % 256 ∧
      ∀ r : Reg, r ≠ x → t.reg r = s.reg r

/-- R102: LD I, nnn. -/
def Obligations.LoadIndex : Prop :=
  ∀ (nnn : Addr) (s : State),
    decodeWord (wordNNN 0xA nnn.toNat) = .ldI nnn ∧
    ∃ t, exec (.ldI nnn) s = .next t ∧ t = { s with i := t.i } ∧ t.i.toNat = nnn.toNat ∧ t.i.toNat < 4096

/-- R103: RND Vx, nn stores the drawn byte under the mask.  The draw `s.randIn` is any byte: the statement holds for each
(log 7). -/
def Obligations.RandomByteUnderMask : Prop :=
  ∀ (x : Reg) (nn : Byte) (s : State),
    decodeWord (wordXNN 0xC x.val nn.toNat) = .rnd x nn ∧
    ∃ t, exec (.rnd x nn) s = .next t ∧ t = { s with v := t.v, randIn := t.randIn, fresh := t.fresh } ∧
      (∀ r : Reg, t.reg r = if r = x then s.randIn &&& nn else s.reg r) ∧
      t.reg x &&& ~~~nn = 0

/-! ### Register ALU (43_alu.md) -/

/-- R110: LD Vx, Vy copies and writes no flag. -/
def Obligations.CopyRegister : Prop :=
  ∀ (x y : Reg) (s : State),
    decodeWord (wordXYN 0x8 x.val y.val 0x0) = .ldReg x y ∧
    ∃ t, exec (.ldReg x y) s = .next t ∧ t = { s with v := t.v } ∧
      ∀ r : Reg, t.reg r = if r = x then s.reg y else s.reg r

/-- R111, R112, R113: OR, AND and XOR write the bitwise result and then clear `VF`, so that with X = 15 the result is lost. -/
def Obligations.LogicalOpsClearTheFlag : Prop :=
  ∀ (x y : Reg) (s : State),
    decodeWord (wordXYN 0x8 x.val y.val 0x1) = .orReg x y ∧
    decodeWord (wordXYN 0x8 x.val y.val 0x2) = .andReg x y ∧
    decodeWord (wordXYN 0x8 x.val y.val 0x3) = .xorReg x y ∧
    (∃ t, exec (.orReg x y) s = .next t ∧ t = { s with v := t.v } ∧
      ∀ r : Reg, t.reg r = if r = 15 then 0 else if r = x then s.reg x ||| s.reg y else s.reg r) ∧
    (∃ t, exec (.andReg x y) s = .next t ∧ t = { s with v := t.v } ∧
      ∀ r : Reg, t.reg r = if r = 15 then 0 else if r = x then s.reg x &&& s.reg y else s.reg r) ∧
    (∃ t, exec (.xorReg x y) s = .next t ∧ t = { s with v := t.v } ∧
      ∀ r : Reg, t.reg r = if r = 15 then 0 else if r = x then s.reg x ^^^ s.reg y else s.reg r)

/-- R114: ADD Vx, Vy truncates the sum and writes the carry out of bit 7 to `VF`, last. -/
def Obligations.AddRegistersWithCarryOut : Prop :=
  ∀ (x y : Reg) (s : State),
    decodeWord (wordXYN 0x8 x.val y.val 0x4) = .addReg x y ∧
    ∃ t, exec (.addReg x y) s = .next t ∧ t = { s with v := t.v } ∧
      (t.reg 15).toNat = ((s.reg x).toNat + (s.reg y).toNat) / 256 ∧
      (x ≠ 15 → (t.reg x).toNat = ((s.reg x).toNat + (s.reg y).toNat) % 256) ∧
      ∀ r : Reg, r ≠ x → r ≠ 15 → t.reg r = s.reg r

/-- R115, R117: SUB and SUBN write the difference modulo 256 to `V[x]`, and then to `VF` 1 exactly when the minuend is
strictly greater: equal operands give 0. -/
def Obligations.SubtractFlagIsStrictlyGreater : Prop :=
  ∀ (x y : Reg) (s : State),
    decodeWord (wordXYN 0x8 x.val y.val 0x5) = .sub x y ∧
    decodeWord (wordXYN 0x8 x.val y.val 0x7) = .subn x y ∧
    (∃ t, exec (.sub x y) s = .next t ∧ t = { s with v := t.v } ∧
      t.reg 15 = (if (s.reg x).toNat > (s.reg y).toNat then 1 else 0) ∧
      (x ≠ 15 → (t.reg x).toNat = (256 + (s.reg x).toNat - (s.reg y).toNat) % 256) ∧
      ∀ r : Reg, r ≠ x → r ≠ 15 → t.reg r = s.reg r) ∧
    (∃ t, exec (.subn x y) s = .next t ∧ t = { s with v := t.v } ∧
      t.reg 15 = (if (s.reg y).toNat > (s.reg x).toNat then 1 else 0) ∧
      (x ≠ 15 → (t.reg x).toNat = (256 + (s.reg y).toNat - (s.reg x).toNat) % 256) ∧
      ∀ r : Reg, r ≠ x → r ≠ 15 → t.reg r = s.reg r)

/-- R116: SHR under every setting.  `z` is the register shifted: `V[y]` in legacy mode, `V[x]` in modern mode.  `preCopy`:
`VF` takes bit 0 of `V[x]` on entry, then `V[x]` takes half of `V[z]` as it then stands.  `postCopy`: `V[x]` takes half of
`V[z]`, then `VF` takes bit 0 of the old `V[z]`. -/
def Obligations.ShiftRight : Prop :=
  ∀ (x y z : Reg) (s : State), (z = if s.cfg.qShift = .legacy then y else x) →
    decodeWord (wordXYN 0x8 x.val y.val 0x6) = .shr x y ∧
    ∃ t, exec (.shr x y) s = .next t ∧ t = { s with v := t.v } ∧
      (s.cfg.shiftFlagSource = .preCopy → ∀ r : Reg, (t.reg r).toNat =
        if r = x then (if z = 15 then (s.reg x).toNat % 2 else (s.reg z).toNat) / 2
        else if r = 15 then (s.reg x).toNat % 2 else (s.reg r).toNat) ∧
      (s.cfg.shiftFlagSource = .postCopy → ∀ r : Reg, (t.reg r).toNat =
        if r = 15 then (s.reg z).toNat % 2
        else if r = x then (s.reg z).toNat / 2 else (s.reg r).toNat)

/-- R118: SHL under every setting, as R116 with bit 7 and the doubled value modulo 256. -/
def Obligations.ShiftLeft : Prop :=
  ∀ (x y z : Reg) (s : State), (z = if s.cfg.qShift = .legacy then y else x) →
    decodeWord (wordXYN 0x8 x.val y.val 0xE) = .shl x y ∧
    ∃ t, exec (.shl x y) s = .next t ∧ t = { s with v := t.v } ∧
      (s.cfg.shiftFlagSource = .preCopy → ∀ r : Reg, (t.reg r).toNat =
        if r = x then 2 * (if z = 15 then (s.reg x).toNat / 128 else (s.reg z).toNat) % 256
        else if r = 15 then (s.reg x).toNat / 128 else (s.reg r).toNat) ∧
      (s.cfg.shiftFlagSource = .postCopy → ∀ r : Reg, (t.reg r).toNat =
        if r = 15 then (s.reg z).toNat / 128
        else if r = x then 2 * (s.reg z).toNat % 256 else (s.reg r).toNat)

/-- R225: under limits on its operands an instruction does the same under every setting of the three quirk flags: every
instruction but shifts of two different registers, BNNN with two different offsets, and the block transfers. -/
def Obligations.QuirkFreeInstructionsIgnoreTheFlags : Prop :=
  ∀ (i : Instr) (s : State) (shift jump memInc : Quirk), quirkFree i s = true →
    exec i (s.withQuirks shift jump memInc) =
      andThen (exec i s) (fun t => .next (t.withQuirks shift jump memInc))

/-! ### Display (44_display.md) -/

/-- R130: CLS clears every pixel and writes nothing else. -/
def Obligations.ClsClearsTheDisplay : Prop :=
  decodeWord 0x00E0 = .cls ∧
  ∀ s : State, ∃ t, exec .cls s = .next t ∧ t = { s with disp := t.disp } ∧
    ∀ row col, row < 32 → col < 64 → t.disp.pixel row col = false

/-- R131: DRW flips exactly the pixels where the sprite sets a bit, clipped at the right and bottom edges, writes to `VF`
whether one of them was set, and changes nothing else; when a drawn row lies above 0xFFF it is the fault
`memOutOfRange`. -/
def Obligations.DrawXorsTheSprite : Prop :=
  ∀ (x y : Reg) (n : RowCount) (s : State),
    decodeWord (wordXYN 0xD x.val y.val n.val) = .drw x y n ∧
    ((∀ r, r < n.val → (s.reg y).toNat % 32 + r ≤ 31 → s.i.toNat + r ≤ 0xFFF) →
      ∃ t, exec (.drw x y n) s = .next t ∧ t = { s with v := t.v, disp := t.disp } ∧
        (∀ row col, row < 32 → col < 64 →
          (t.disp.pixel row col = true ↔ ¬ (s.disp.pixel row col = true ↔ SpriteBit s x y n row col))) ∧
        ((∃ row col, row < 32 ∧ col < 64 ∧ s.disp.pixel row col = true ∧ SpriteBit s x y n row col) → t.reg 15 = 1) ∧
        ((¬ ∃ row col, row < 32 ∧ col < 64 ∧ s.disp.pixel row col = true ∧ SpriteBit s x y n row col) → t.reg 15 = 0) ∧
        ∀ r : Reg, r ≠ 15 → t.reg r = s.reg r) ∧
    ((∃ r, r < n.val ∧ (s.reg y).toNat % 32 + r ≤ 31 ∧ 0xFFF < s.i.toNat + r) →
      exec (.drw x y n) s = .fault (.memOutOfRange (s.pc - 2) (max s.i.toNat 0x1000)))

/-- Source property S3: the same sprite drawn twice at the same origin leaves the display as it was; on a cleared display
the first draw reports no collision, and the second one reports it exactly when some bit of the sprite shows.  With X or
Y = 15 the flag of the first draw moves the origin, so the two draws are not at the same one. -/
def Obligations.DrawingTwiceCancels : Prop :=
  ∀ (x y : Reg) (n : RowCount) (s : State), x ≠ 15 → y ≠ 15 →
    (∀ r, r < n.val → (s.reg y).toNat % 32 + r ≤ 31 → s.i.toNat + r ≤ 0xFFF) →
    ∃ t u, exec (.drw x y n) s = .next t ∧ exec (.drw x y n) t = .next u ∧ u.disp = s.disp ∧
      (s.disp = Vector.replicate 32 0 →
        t.reg 15 = 0 ∧ (u.reg 15 = 1 ↔ ∃ row col, row < 32 ∧ col < 64 ∧ SpriteBit s x y n row col))

/-! ### Keypad (45_keypad.md) -/

/-- R140, R141: SKP and SKNP test the latched level of the key `V[x]` names; above 15 they are the fault
`keyIndexOutOfRange`.  They write nothing but `PC`. -/
def Obligations.SkipsOnAKey : Prop :=
  ∀ (x : Reg) (s : State),
    decodeWord (wordXNN 0xE x.val 0x9E) = .skp x ∧
    decodeWord (wordXNN 0xE x.val 0xA1) = .sknp x ∧
    ((s.reg x).toNat ≤ 15 →
      exec (.skp x) s = .next { s with pc := if s.k.getLsbD (s.reg x).toNat then s.pc + 2 else s.pc } ∧
      exec (.sknp x) s = .next { s with pc := if s.k.getLsbD (s.reg x).toNat then s.pc else s.pc + 2 }) ∧
    (15 < (s.reg x).toNat →
      exec (.skp x) s = .fault (.keyIndexOutOfRange (s.pc - 2) (s.reg x)) ∧
      exec (.sknp x) s = .fault (.keyIndexOutOfRange (s.pc - 2) (s.reg x)))

/-- R142: LD Vx, K goes back onto itself while no key is down, and else stores the smallest pressed key, which exists. -/
def Obligations.KeyWaitStoresTheLowestKey : Prop :=
  ∀ (x : Reg) (s : State),
    decodeWord (wordXNN 0xF x.val 0x0A) = .ldVxK x ∧
    ((∀ k, k < 16 → s.k.getLsbD k = false) → exec (.ldVxK x) s = .next { s with pc := s.pc - 2 }) ∧
    ((∃ k, k < 16 ∧ s.k.getLsbD k = true) →
      ∃ t k, exec (.ldVxK x) s = .next t ∧ t = { s with v := t.v } ∧
        k < 16 ∧ s.k.getLsbD k = true ∧ (∀ j, j < k → s.k.getLsbD j = false) ∧
        (t.reg x).toNat = k ∧ ∀ r : Reg, r ≠ x → t.reg r = s.reg r)

/-- Source property S5 with R223: while no key is down LD Vx, K lands on its own address in two frame ticks on end and
writes no register, and both timers go on counting. -/
def Obligations.KeyWaitSpinsAndTimeRuns : Prop :=
  ∀ (x : Reg) (s : State), s.rst = false → s.pause = false → s.cfg.extraPerTick = 0 → s.pc.toNat ≤ 0xFFE →
    decodeWord (wordOfBytes (s.byteAt s.pc.toNat) (s.byteAt (s.pc.toNat + 1))) = .ldVxK x → s.keyIn = 0 →
    ∃ t u, step s = .next t ∧ step (t.driveKeys 0) = .next u ∧
      t.pc = s.pc ∧ u.pc = s.pc ∧ (∀ r : Reg, t.reg r = s.reg r ∧ u.reg r = s.reg r) ∧
      t.dt.toNat = s.dt.toNat - 1 ∧ u.dt.toNat = s.dt.toNat - 2 ∧
      t.st.toNat = s.st.toNat - 1 ∧ u.st.toNat = s.st.toNat - 2

/-! ### Timer instructions (46_timers.md) -/

/-- R150, R151, R152: the three transfers between a register and a timer, and nothing else. -/
def Obligations.TimerTransfers : Prop :=
  ∀ (x : Reg) (s : State),
    decodeWord (wordXNN 0xF x.val 0x07) = .ldVxDt x ∧
    decodeWord (wordXNN 0xF x.val 0x15) = .ldDtVx x ∧
    decodeWord (wordXNN 0xF x.val 0x18) = .ldStVx x ∧
    (∃ t, exec (.ldVxDt x) s = .next t ∧ t = { s with v := t.v } ∧
      ∀ r : Reg, t.reg r = if r = x then s.dt else s.reg r) ∧
    exec (.ldDtVx x) s = .next { s with dt := s.reg x } ∧
    exec (.ldStVx x) s = .next { s with st := s.reg x }

/-! ### Index and memory (47_index_memory.md) -/

/-- R160: ADD I, Vx keeps the sum to 12 bits and writes to `VF` whether it passed 0xFFF. -/
def Obligations.AddToIndexSetsTheFlag : Prop :=
  ∀ (x : Reg) (s : State),
    decodeWord (wordXNN 0xF x.val 0x1E) = .addIVx x ∧
    ∃ t, exec (.addIVx x) s = .next t ∧ t = { s with v := t.v, i := t.i } ∧
      t.i.toNat = (s.i.toNat + (s.reg x).toNat) % 4096 ∧
      t.reg 15 = (if s.i.toNat + (s.reg x).toNat > 0xFFF then 1 else 0) ∧
      ∀ r : Reg, r ≠ 15 → t.reg r = s.reg r

/-- R161: LD F, Vx points `I` at the glyph of a digit, below 0x200; above 15 it is the fault `glyphIndexOutOfRange`. -/
def Obligations.FontAddressOfADigit : Prop :=
  ∀ (x : Reg) (s : State),
    decodeWord (wordXNN 0xF x.val 0x29) = .ldFVx x ∧
    ((s.reg x).toNat ≤ 15 →
      ∃ t, exec (.ldFVx x) s = .next t ∧ t = { s with i := t.i } ∧
        t.i.toNat = s.cfg.fontBase.val + 5 * (s.reg x).toNat ∧ t.i.toNat < 0x200) ∧
    (15 < (s.reg x).toNat → exec (.ldFVx x) s = .fault (.glyphIndexOutOfRange (s.pc - 2) (s.reg x)))

/-- R162: LD B, Vx stores the hundreds, tens and units digit at `I`, `I + 1`, `I + 2` and leaves every other address and
everything else alone; when `I + 2` is above 0xFFF it is the fault `memOutOfRange`. -/
def Obligations.DecimalDigitsAreStored : Prop :=
  ∀ (x : Reg) (s : State),
    decodeWord (wordXNN 0xF x.val 0x33) = .ldBVx x ∧
    (s.i.toNat + 2 ≤ 0xFFF →
      ∃ t, exec (.ldBVx x) s = .next t ∧ t = { s with mem := t.mem } ∧
        (t.byteAt s.i.toNat).toNat = (s.reg x).toNat / 100 ∧
        (t.byteAt (s.i.toNat + 1)).toNat = (s.reg x).toNat / 10 % 10 ∧
        (t.byteAt (s.i.toNat + 2)).toNat = (s.reg x).toNat % 10 ∧
        ∀ a, a < s.i.toNat ∨ s.i.toNat + 2 < a → t.byteAt a = s.byteAt a) ∧
    (0xFFF < s.i.toNat + 2 → exec (.ldBVx x) s = .fault (.memOutOfRange (s.pc - 2) (max s.i.toNat 0x1000)))

/-- R163: LD [I], Vx stores `V0` to `V[x]` at ascending addresses from `I`, leaves every other address and every register
alone, and advances `I` by X + 1 modulo 4096 in legacy mode only; when `I + X` is above 0xFFF it is the fault
`memOutOfRange`. -/
def Obligations.RegistersAreStored : Prop :=
  ∀ (x : Reg) (s : State),
    decodeWord (wordXNN 0xF x.val 0x55) = .ldMemVx x ∧
    (s.i.toNat + x.val ≤ 0xFFF →
      ∃ t, exec (.ldMemVx x) s = .next t ∧ t = { s with mem := t.mem, i := t.i } ∧
        (∀ r : Reg, r ≤ x → t.byteAt (s.i.toNat + r.val) = s.reg r) ∧
        (∀ a, a < s.i.toNat ∨ s.i.toNat + x.val < a → t.byteAt a = s.byteAt a) ∧
        (s.cfg.qMemInc = .legacy → t.i.toNat = (s.i.toNat + x.val + 1) % 4096) ∧
        (s.cfg.qMemInc = .modern → t.i = s.i)) ∧
    (0xFFF < s.i.toNat + x.val → exec (.ldMemVx x) s = .fault (.memOutOfRange (s.pc - 2) (max s.i.toNat 0x1000)))

/-- R164: LD Vx, [I] loads `V0` to `V[x]` from ascending addresses from `I`, leaves the registers above and all of memory
alone, and advances `I` by X + 1 modulo 4096 in legacy mode only; when `I + X` is above 0xFFF it is the fault
`memOutOfRange`. -/
def Obligations.RegistersAreLoaded : Prop :=
  ∀ (x : Reg) (s : State),
    decodeWord (wordXNN 0xF x.val 0x65) = .ldVxMem x ∧
    (s.i.toNat + x.val ≤ 0xFFF →
      ∃ t, exec (.ldVxMem x) s = .next t ∧ t = { s with v := t.v, i := t.i } ∧
        (∀ r : Reg, t.reg r = if r ≤ x then s.byteAt (s.i.toNat + r.val) else s.reg r) ∧
        (s.cfg.qMemInc = .legacy → t.i.toNat = (s.i.toNat + x.val + 1) % 4096) ∧
        (s.cfg.qMemInc = .modern → t.i = s.i)) ∧
    (0xFFF < s.i.toNat + x.val → exec (.ldVxMem x) s = .fault (.memOutOfRange (s.pc - 2) (max s.i.toNat 0x1000)))

/-- Source property S6: what LD [I], Vx stored, LD Vx, [I] with the same X and the same `I` reads back into the same
registers, whatever the registers held in between. -/
def Obligations.StoredRegistersLoadBack : Prop :=
  ∀ (x : Reg) (s : State) (between : Vector Byte 16), s.i.toNat + x.val ≤ 0xFFF →
    ∃ t u, exec (.ldMemVx x) s = .next t ∧ exec (.ldVxMem x) { t with v := between, i := s.i } = .next u ∧
      (∀ r : Reg, r ≤ x → u.reg r = s.reg r) ∧ u.i = t.i

/-- R53: bytes stored by LD [I], Vx are the instruction word a fetch at their address then reads, and so are two digits
stored by LD B, Vx. -/
def Obligations.StoresAreSeenByTheNextFetch : Prop :=
  ∀ (x : Reg) (s t : State),
    (exec (.ldMemVx x) s = .next t → ∀ a b : Reg, b.val = a.val + 1 → b ≤ x →
      fetch { t with pc := BitVec.ofNat 16 (s.i.toNat + a.val) } = .ok (wordOfBytes (s.reg a) (s.reg b))) ∧
    (exec (.ldBVx x) s = .next t →
      fetch { t with pc := s.i } =
        .ok (wordOfBytes (BitVec.ofNat 8 ((s.reg x).toNat / 100)) (BitVec.ofNat 8 ((s.reg x).toNat / 10 % 10))))

/-! ### Encoding (30_encoding.md) -/

/-- Every well-formed instruction, with every operand, decodes back from its word and from its two bytes in memory order. -/
def Obligations.DecodeEncodeRoundTrip : Prop :=
  ∀ (i : Instr) (rest : List Byte), i.wellFormed = true →
    decodeWord (encode i) = i ∧ decode (encodeBytes i ++ rest) = .ok (i, rest)

/-- R63: decoding is total and loses nothing: every word decodes to a well-formed instruction whose encoding is the word. -/
def Obligations.EncodeDecodeRoundTrip : Prop :=
  ∀ w : Word, (decodeWord w).wellFormed = true ∧ encode (decodeWord w) = w

/-- R64: the decoding procedure selects for every word the first row of the opcode table that matches it. -/
def Obligations.DecodeFollowsTheOpcodeTable : Prop :=
  ∀ w : Word, firstRow w = some (decodeWord w).row

/-- Words written out from the encodings of R64 decode to the instructions they stand for (a sanity statement). -/
def Obligations.SampleWordsDecode : Prop :=
  decodeWord 0x00E0 = .cls ∧ decodeWord 0x00EE = .ret ∧ decodeWord 0x2ABC = .call 0xABC ∧
  decodeWord 0x3A42 = .seImm 10 0x42 ∧ decodeWord 0x8B76 = .shr 11 7 ∧ decodeWord 0xD7E5 = .drw 7 14 5 ∧
  decodeWord 0xEC9E = .skp 12 ∧ decodeWord 0xF30A = .ldVxK 3 ∧ decodeWord 0xF965 = .ldVxMem 9 ∧
  decodeWord 0x8AB9 = .unknown 0x8AB9

/-! ### Steps and frame ticks (10_state.md R15, 60_exceptions.md) -/

/-- A step runs the decoded instruction: when the bytes at `PC` decode to a well-formed instruction, the step is that
instruction at the state the prologue and the advance leave, and then the further instructions of the tick, none when
INSTR_PER_TICK is 1. -/
def Obligations.StepRunsTheDecodedInstruction : Prop :=
  ∀ (s : State) (i : Instr), s.rst = false → s.pause = false → s.pc.toNat ≤ 0xFFE → i.wellFormed = true →
    decode [s.byteAt s.pc.toNat, s.byteAt (s.pc.toNat + 1)] = .ok (i, []) →
    step s = andThen (exec i s.prologue.advance) (cycles s.cfg.extraPerTick) ∧
    (s.cfg.extraPerTick = 0 → step s = exec i s.prologue.advance)

/-- R15: an instruction step fetches the big-endian word at `PC`, advances `PC` by 2 and executes; and where each
instruction leaves `PC` is as the table of R15 says. -/
def Obligations.CycleAdvancesThenExecutes : Prop :=
  ∀ s : State,
    (s.pc.toNat ≤ 0xFFE →
      cycle s = exec (decodeWord (s.byteAt s.pc.toNat ++ s.byteAt (s.pc.toNat + 1))) { s with pc := s.pc + 2 }) ∧
    ∀ (i : Instr) (t : State), exec i s = .next t → t.pc = pcAfter i s

/-- R42 for fetch: with `PC` above 0xFFE the instruction step is the fault `memOutOfRange` that names the lowest address
above 0xFFF, and so is the frame tick. -/
def Obligations.FetchAboveMemoryFaults : Prop :=
  ∀ s : State, 0xFFE < s.pc.toNat →
    cycle s = .fault (.memOutOfRange s.pc (max s.pc.toNat 0x1000)) ∧
    (s.rst = false → s.pause = false → step s = .fault (.memOutOfRange s.pc (max s.pc.toNat 0x1000)))

/-- R190: the frame tick: nothing while paused; else the sound pulse and the sound timer, the key latch, the delay timer,
and then INSTR_PER_TICK instruction steps, one after another.  That the outputs, the spec's `unknown_*` of R183 and R195 among
them, keep their values in a paused tick is the model's reading of R190 and R198 against R183 (log 13, DEDUCED).  About the
tick that runs nothing is said of `unknown`, which holds those outputs (log 23), of the input level `keyIn`, and of the
model's own `started` and `fresh` (log 6, log 15). -/
def Obligations.FrameTickOrder : Prop :=
  ∀ s : State, s.rst = false →
    (s.pause = true → step s = .next s) ∧
    (s.pause = false → ∃ p : State,
      step s = cycles s.cfg.instrPerTick p ∧
      p = { s with sndExpire := p.sndExpire, st := p.st, k := s.keyIn, dt := p.dt, unknown := p.unknown,
                   started := p.started, keyIn := p.keyIn, fresh := p.fresh } ∧
      (p.sndExpire = true ↔ s.st = 1) ∧ p.st.toNat = s.st.toNat - 1 ∧ p.dt.toNat = s.dt.toNat - 1) ∧
    (∀ u : State, cycles 0 u = .next u) ∧
    (∀ (n : Nat) (u : State), cycles (n + 1) u = andThen (cycle u) (cycles n))

/-- R155: over a whole frame tick each timer drops by one and stops at 0, unless the tick's instruction sets it, whatever
else the instruction does. -/
def Obligations.TimersCountDownOncePerTick : Prop :=
  ∀ (s t : State) (i : Instr), s.rst = false → s.pause = false → s.cfg.extraPerTick = 0 →
    decodeWord (wordOfBytes (s.byteAt s.pc.toNat) (s.byteAt (s.pc.toNat + 1))) = i → step s = .next t →
    ((∀ x : Reg, i ≠ .ldDtVx x) → t.dt.toNat = s.dt.toNat - 1) ∧
    ((∀ x : Reg, i ≠ .ldStVx x) → t.st.toNat = s.st.toNat - 1)

/-- R156: after a frame tick `snd_expire` is 1 exactly when the tick's decrement took `ST` from 1 to 0, for any number of
instructions a tick. -/
def Obligations.SoundPulseOnExpiry : Prop :=
  ∀ s t : State, s.rst = false → s.pause = false → step s = .next t → (t.sndExpire = true ↔ s.st = 1)

/-- R222: FX15 then FX07 in the next frame tick reads the value set minus 1, floored at 0, and FX15 and FX18 are not
decremented in their own tick. -/
def Obligations.SetThenReadTheDelayTimer : Prop :=
  ∀ (x y : Reg) (s : State), s.rst = false → s.pause = false → s.cfg.extraPerTick = 0 → s.pc.toNat ≤ 0xFFC →
    (decodeWord (wordOfBytes (s.byteAt s.pc.toNat) (s.byteAt (s.pc.toNat + 1))) = .ldDtVx x →
      decodeWord (wordOfBytes (s.byteAt (s.pc.toNat + 2)) (s.byteAt (s.pc.toNat + 3))) = .ldVxDt y →
      ∃ t u, step s = .next t ∧ step t = .next u ∧ t.dt = s.reg x ∧ (u.reg y).toNat = (s.reg x).toNat - 1) ∧
    (decodeWord (wordOfBytes (s.byteAt s.pc.toNat) (s.byteAt (s.pc.toNat + 1))) = .ldStVx x →
      ∃ t, step s = .next t ∧ t.st = s.reg x)

/-! ### Reset and ROM load (10_state.md R24, 60_exceptions.md R196, R197, 70_reset_and_hazards.md) -/

/-- R22: the combined option, when it is set, is the value of all three effective flags; else each flag is its own option. -/
def Obligations.EffectiveQuirkFlags : Prop :=
  ∀ (p : Params) (shift jump memInc m : Quirk),
    (p.withOptions (some m) shift jump memInc).qShift = m ∧ (p.withOptions (some m) shift jump memInc).qJump = m ∧
    (p.withOptions (some m) shift jump memInc).qMemInc = m ∧
    (p.withOptions none shift jump memInc).qShift = shift ∧ (p.withOptions none shift jump memInc).qJump = jump ∧
    (p.withOptions none shift jump memInc).qMemInc = memInc

/-- R196, R24, R212: while `rst` is asserted no frame tick is taken, and asserting it puts every piece of state to its
reset value; the parameters are unchanged.  That a step at any state with `rst` asserted gives the values of R24 again, so
that a byte loaded while `rst` is asserted is lost too, is the model's choice (log 14), not the spec's. -/
def Obligations.ResetPortGivesTheResetTable : Prop :=
  ∀ s : State, s.rst = true → ∃ t, step s = .next t ∧
    (∀ r : Reg, t.reg r = 0) ∧ t.i = 0 ∧ t.pc = s.cfg.resetPc ∧ t.sp = 0 ∧ (∀ k : Fin 16, t.stk[k.val] = 0) ∧
    t.dt = 0 ∧ t.st = 0 ∧ (∀ row col, row < 32 → col < 64 → t.disp.pixel row col = false) ∧ t.k = 0 ∧
    (∀ j : Fin 80, t.byteAt (s.cfg.fontBase.val + j.val) = s.cfg.fontData[j.val]) ∧
    (∀ a, a < s.cfg.fontBase.val ∨ s.cfg.fontBase.val + 80 ≤ a → t.byteAt a = 0) ∧
    t.sndExpire = false ∧ t.unknownOpcode = false ∧ t.cfg = s.cfg

/-- R24, R211 for `State.reset`, whatever the OPEN parameters are.  `RESET_PC` = 0x200, one instruction a tick and the
font are the spec's defaults (log 3).  That `rst` and `pause` are low (log 8) and that `started` is false (log 15) is the
model's choice, not the spec's. -/
def Obligations.StateResetIsTheResetTable : Prop :=
  State.reset.pc = 0x200 ∧ State.reset.i = 0 ∧ State.reset.sp = 0 ∧ State.reset.dt = 0 ∧ State.reset.st = 0 ∧
  State.reset.k = 0 ∧ State.reset.sndExpire = false ∧ State.reset.unknownOpcode = false ∧
  State.reset.rst = false ∧ State.reset.pause = false ∧ State.reset.started = false ∧
  State.reset.cfg.instrPerTick = 1 ∧
  (∀ r : Reg, State.reset.reg r = 0) ∧ (∀ k : Fin 16, State.reset.stk[k.val] = 0) ∧
  (∀ row col, row < 32 → col < 64 → State.reset.disp.pixel row col = false) ∧
  (∀ j : Fin 80, State.reset.byteAt (State.reset.cfg.fontBase.val + j.val) = fontDefault[j.val]) ∧
  (∀ a, a < State.reset.cfg.fontBase.val ∨ State.reset.cfg.fontBase.val + 80 ≤ a → State.reset.byteAt a = 0)

/-- R197: the load port writes one byte of `MEM` and nothing else, before the first frame tick; once a frame tick has been
taken the model refuses it by name (93_implementation_defined.md U7, log 15).  That every 12-bit address is taken, also one
below 0x200, is the model's choice (log 16): 92_eei_decisions.md D2 has the host use the port from 0x200 up. -/
def Obligations.LoadPortWritesOneByte : Prop :=
  ∀ (addr : Addr) (data : Byte) (s : State),
    (s.started = false → ∃ t, ldWrite addr data s = .next t ∧ t = { s with mem := t.mem } ∧
      t.byteAt addr.toNat = data ∧ ∀ a, a ≠ addr.toNat → t.byteAt a = s.byteAt a) ∧
    (s.started = true → ldWrite addr data s = .refused .loadDuringRun)

/-- R214: a ROM of at most 3584 bytes stands at 0x200 upward after it is loaded, nothing else changed; and a machine with
`PC` at 0x200 that is neither reset nor paused then starts its first frame tick with the ROM's first two bytes as its
word. -/
def Obligations.LoadedRomRunsFirst : Prop :=
  ∀ (rom : List Byte) (s : State), rom.length ≤ 3584 → s.started = false →
    ∃ t, loadRom rom s = .next t ∧ t = { s with mem := t.mem } ∧
      (∀ j (h : j < rom.length), t.byteAt (0x200 + j) = rom[j]) ∧
      (∀ a, a < 0x200 ∨ 0x200 + rom.length ≤ a → t.byteAt a = s.byteAt a) ∧
      (∀ hi lo rest, rom = hi :: lo :: rest → s.pc = 0x200 → s.rst = false → s.pause = false →
        step t = andThen (exec (decodeWord (wordOfBytes hi lo)) t.prologue.advance) (cycles s.cfg.extraPerTick))

/-! ### Rules of the whole machine -/

/-- R25 with R13, R16, R17, R18, R19 and R45: which part of the state an instruction may write; the key latch, the
parameters, the sound pulse, the input levels and the run marker are written by none. -/
def Obligations.NothingElseWritesAPart : Prop :=
  ∀ (i : Instr) (s t : State), exec i s = .next t →
    (Part.index ∉ partsWritten i → t.i = s.i) ∧
    (Part.stackCount ∉ partsWritten i → t.sp = s.sp) ∧
    (Part.stackSlots ∉ partsWritten i → t.stk = s.stk) ∧
    (Part.delay ∉ partsWritten i → t.dt = s.dt) ∧
    (Part.sound ∉ partsWritten i → t.st = s.st) ∧
    (Part.display ∉ partsWritten i → t.disp = s.disp) ∧
    (Part.memory ∉ partsWritten i → ∀ a, t.byteAt a = s.byteAt a) ∧
    (Part.random ∉ partsWritten i → t.randIn = s.randIn ∧ t.fresh = s.fresh) ∧
    (Part.report ∉ partsWritten i → t.unknown = s.unknown) ∧
    t.k = s.k ∧ t.cfg = s.cfg ∧ t.sndExpire = s.sndExpire ∧ t.pause = s.pause ∧ t.rst = s.rst ∧
    t.keyIn = s.keyIn ∧ t.started = s.started

/-- R11, R12: a register is written only by an instruction that names it as destination, or, for `VF`, by one that writes
the flag. -/
def Obligations.NothingElseWritesARegister : Prop :=
  ∀ (i : Instr) (s t : State) (r : Reg), exec i s = .next t → writesReg i r = false → t.reg r = s.reg r

/-- R226, R180: an instruction completes exactly when it stays within the limits, and else it is a fault; it is never
refused. -/
def Obligations.ExecCompletesWithinTheLimits : Prop :=
  ∀ (i : Instr) (s : State),
    (withinLimits i s = true → ∃ t, exec i s = .next t) ∧
    (withinLimits i s = false → ∃ f, exec i s = .fault f)

/-- No step is refused: every word has a meaning, and what the spec leaves undefined is a named fault. -/
def Obligations.NoStepIsRefused : Prop :=
  ∀ (s : State) (r : Refusal), step s ≠ .refused r

/-- R17: no instruction reads the sound timer: with another value in `ST` it does the same to everything else. -/
def Obligations.SoundTimerIsUnreadable : Prop :=
  ∀ (i : Instr) (s : State) (b : Byte),
    ((∀ x : Reg, i ≠ .ldStVx x) →
      exec i { s with st := b } = andThen (exec i s) (fun t => .next { t with st := b })) ∧
    ∀ x : Reg, exec (.ldStVx x) { s with st := b } = exec (.ldStVx x) s

/-- R21: the quirk flags and parameters are fixed for a run: no step, reset included, changes them. -/
def Obligations.ParametersAreFixed : Prop :=
  ∀ s t : State, step s = .next t → t.cfg = s.cfg

/-- The invariant (memory canonical, `I` below 2^12, `PC` at most 0x10FE, return addresses at most 0x1000, no report unless
strict) is kept by every step. -/
def Obligations.EveryStepKeepsTheInvariant : Prop :=
  ∀ s t : State, s.Inv → step s = .next t → t.Inv

/-- The invariant holds right after reset. -/
def Obligations.TheInvariantHoldsAtReset : Prop :=
  State.reset.Inv

/-- R196, R210: asserting `rst` is the reset transition at once, with no `tick` event; while it stays asserted no frame tick
is taken; raised and lowered between two ticks it has reset everything, and the load port is open again (log 15).  Lowering
it changes the level only, and so leaves a machine that was not reset as it was.  That the host's move is the function
`driveRst` and that a step with `rst` asserted holds the reset values is the model's form of the port (log 8, log 14).  The
write through the load port is that of R197; that it goes on at every 12-bit address, the ones below 0x200 included, is the
model's choice (log 16; 92_eei_decisions.md D2 has the host use it from 0x200 up). -/
def Obligations.AssertingResetActsAtOnce : Prop :=
  ∀ s : State,
    (s.driveRst true).AtReset ∧ (s.driveRst true).cfg = s.cfg ∧
    step (s.driveRst true) = .next (s.driveRst true) ∧
    ((s.driveRst true).driveRst false).AtReset ∧
    s.driveRst false = { s with rst := false } ∧
    ∀ (addr : Addr) (data : Byte), ∃ t, ldWrite addr data ((s.driveRst true).driveRst false) = .next t ∧
      t.byteAt addr.toNat = data ∧ ∀ a, a ≠ addr.toNat → t.byteAt a = s.cfg.initByte a
end

