-- ==== Sys2Proof/Laws/Encoding.lean ====
section
/-! SUPPORT. The fields of a packed word are the ones packed into it, and a packed word seen through the table's masks. -/

namespace Sys2Proof

variable (op n : BitVec 4) (x y : Reg) (nn : Byte) (nnn : Addr)

/-! ### Format `NNN` -/

@[simp] theorem fieldOp_packNNN : fieldOp (packNNN op nnn) = op := by
  unfold fieldOp packNNN
  exact BitVec.extractLsb'_append_eq_left

@[simp] theorem fieldNNN_packNNN : fieldNNN (packNNN op nnn) = nnn := by
  unfold fieldNNN packNNN
  exact BitVec.extractLsb'_append_eq_right

/-! ### Format `XNN` -/

@[simp] theorem fieldOp_packXNN : fieldOp (packXNN op x nn) = op := by
  unfold fieldOp packXNN
  refine BitVec.eq_of_getLsbD_eq fun i hi => ?_
  interval_cases i <;> simp only [BitVec.getLsbD_append, BitVec.getLsbD_extractLsb'] <;> simp

@[simp] theorem fieldX_packXNN : fieldX (packXNN op x nn) = x := by
  unfold fieldX packXNN
  have h : (op ++ BitVec.ofFin (w := 4) x ++ nn).extractLsb' 8 4 = BitVec.ofFin (w := 4) x := by
    refine BitVec.eq_of_getLsbD_eq fun i hi => ?_
    interval_cases i <;> simp only [BitVec.getLsbD_append, BitVec.getLsbD_extractLsb'] <;> simp
  rw [h]

@[simp] theorem fieldNN_packXNN : fieldNN (packXNN op x nn) = nn := by
  unfold fieldNN packXNN
  exact BitVec.extractLsb'_append_eq_right

/-! ### Format `XYN` -/

@[simp] theorem fieldOp_packXYN : fieldOp (packXYN op x y n) = op := by
  unfold fieldOp packXYN
  refine BitVec.eq_of_getLsbD_eq fun i hi => ?_
  interval_cases i <;> simp only [BitVec.getLsbD_append, BitVec.getLsbD_extractLsb'] <;> simp

@[simp] theorem fieldX_packXYN : fieldX (packXYN op x y n) = x := by
  unfold fieldX packXYN
  have h : (op ++ BitVec.ofFin (w := 4) x ++ BitVec.ofFin (w := 4) y ++ n).extractLsb' 8 4 =
      BitVec.ofFin (w := 4) x := by
    refine BitVec.eq_of_getLsbD_eq fun i hi => ?_
    interval_cases i <;> simp only [BitVec.getLsbD_append, BitVec.getLsbD_extractLsb'] <;> simp
  rw [h]

@[simp] theorem fieldY_packXYN : fieldY (packXYN op x y n) = y := by
  unfold fieldY packXYN
  have h : (op ++ BitVec.ofFin (w := 4) x ++ BitVec.ofFin (w := 4) y ++ n).extractLsb' 4 4 =
      BitVec.ofFin (w := 4) y := by
    refine BitVec.eq_of_getLsbD_eq fun i hi => ?_
    interval_cases i <;> simp only [BitVec.getLsbD_append, BitVec.getLsbD_extractLsb'] <;> simp
  rw [h]

@[simp] theorem fieldN_packXYN : fieldN (packXYN op x y n) = n := by
  unfold fieldN packXYN
  exact BitVec.extractLsb'_append_eq_right

/-! ### Packed words under the masks of the opcode table -/

theorem packNNN_mask : packNNN op nnn &&& (0xF000 : Word) = op ++ 0#12 := by
  unfold packNNN
  refine BitVec.eq_of_getLsbD_eq fun i hi => ?_
  interval_cases i <;> simp only [BitVec.getLsbD_append, BitVec.getLsbD_and] <;> simp

theorem packXNN_mask : packXNN op x nn &&& (0xF000 : Word) = op ++ 0#12 := by
  unfold packXNN
  refine BitVec.eq_of_getLsbD_eq fun i hi => ?_
  interval_cases i <;> simp only [BitVec.getLsbD_append, BitVec.getLsbD_and] <;> simp

theorem packXNN_byteMask : packXNN op x nn &&& (0xF0FF : Word) = op ++ 0#4 ++ nn := by
  unfold packXNN
  refine BitVec.eq_of_getLsbD_eq fun i hi => ?_
  interval_cases i <;> simp only [BitVec.getLsbD_append, BitVec.getLsbD_and] <;> simp

theorem packXYN_mask : packXYN op x y n &&& (0xF000 : Word) = op ++ 0#12 := by
  unfold packXYN
  refine BitVec.eq_of_getLsbD_eq fun i hi => ?_
  interval_cases i <;> simp only [BitVec.getLsbD_append, BitVec.getLsbD_and] <;> simp

theorem packXYN_nibbleMask : packXYN op x y n &&& (0xF00F : Word) = op ++ 0#8 ++ n := by
  unfold packXYN
  refine BitVec.eq_of_getLsbD_eq fun i hi => ?_
  interval_cases i <;> simp only [BitVec.getLsbD_append, BitVec.getLsbD_and] <;> simp

/-! ### A word is packed from its own fields -/

theorem packNNN_fields (w : Word) : packNNN (fieldOp w) (fieldNNN w) = w := by
  unfold packNNN fieldOp fieldNNN
  refine BitVec.eq_of_getLsbD_eq fun i hi => ?_
  interval_cases i <;> simp only [BitVec.getLsbD_append, BitVec.getLsbD_extractLsb'] <;> simp

theorem packXNN_fields (w : Word) : packXNN (fieldOp w) (fieldX w) (fieldNN w) = w := by
  unfold packXNN fieldOp fieldX fieldNN
  refine BitVec.eq_of_getLsbD_eq fun i hi => ?_
  rw [show BitVec.ofFin (w := 4) (w.extractLsb' 8 4).toFin = w.extractLsb' 8 4 from rfl]
  interval_cases i <;> simp only [BitVec.getLsbD_append, BitVec.getLsbD_extractLsb'] <;> simp

theorem packXYN_fields (w : Word) : packXYN (fieldOp w) (fieldX w) (fieldY w) (fieldN w) = w := by
  unfold packXYN fieldOp fieldX fieldY fieldN
  refine BitVec.eq_of_getLsbD_eq fun i hi => ?_
  rw [show BitVec.ofFin (w := 4) (w.extractLsb' 8 4).toFin = w.extractLsb' 8 4 from rfl,
    show BitVec.ofFin (w := 4) (w.extractLsb' 4 4).toFin = w.extractLsb' 4 4 from rfl]
  interval_cases i <;> simp only [BitVec.getLsbD_append, BitVec.getLsbD_extractLsb'] <;> simp

/-! ### A row of the table selects a word by its fields -/

/-- Joined bit vectors are equal exactly when both parts are. -/
theorem append_eq_append_iff {m k : Nat} (a c : BitVec m) (b d : BitVec k) : a ++ b = c ++ d ↔ a = c ∧ b = d := by
  constructor
  · intro h
    refine ⟨?_, ?_⟩
    · simpa [BitVec.extractLsb'_append_eq_left] using congrArg (fun z => z.extractLsb' k m) h
    · simpa [BitVec.extractLsb'_append_eq_right] using congrArg (fun z => z.extractLsb' 0 k) h
  · rintro ⟨rfl, rfl⟩
    rfl

theorem selects_op (w : Word) (p : Nat) {m : Word} (hm : m = op ++ 0#12) :
    Row.selects ⟨p, m, 0xF000⟩ w = (fieldOp w == op) := by
  unfold Row.selects
  rw [Bool.eq_iff_iff, beq_iff_eq, beq_iff_eq, hm]
  conv_lhs => rw [← packNNN_fields w, packNNN_mask, append_eq_append_iff]
  simp

theorem selects_opN (w : Word) (p : Nat) {m : Word} (hm : m = op ++ 0#8 ++ n) :
    Row.selects ⟨p, m, 0xF00F⟩ w = (fieldOp w == op && fieldN w == n) := by
  unfold Row.selects
  rw [Bool.eq_iff_iff, Bool.and_eq_true, beq_iff_eq, beq_iff_eq, beq_iff_eq, hm]
  conv_lhs => rw [← packXYN_fields w, packXYN_nibbleMask, append_eq_append_iff, append_eq_append_iff]
  simp

theorem selects_opNN (w : Word) (p : Nat) {m : Word} (hm : m = op ++ 0#4 ++ nn) :
    Row.selects ⟨p, m, 0xF0FF⟩ w = (fieldOp w == op && fieldNN w == nn) := by
  unfold Row.selects
  rw [Bool.eq_iff_iff, Bool.and_eq_true, beq_iff_eq, beq_iff_eq, beq_iff_eq, hm]
  conv_lhs => rw [← packXNN_fields w, packXNN_byteMask, append_eq_append_iff, append_eq_append_iff]
  simp

theorem selects_whole (w : Word) (p : Nat) (m : Word) : Row.selects ⟨p, m, 0xFFFF⟩ w = (w == m) := by
  unfold Row.selects
  rw [show w &&& 0xFFFF = w from BitVec.and_allOnes]

/-- The two bytes of a word, high byte first, make the word again (20_memory.md R43). -/
theorem wordOfBytes_bytes (w : Word) : wordOfBytes (highByte w) (lowByte w) = w := by
  unfold wordOfBytes highByte lowByte
  refine BitVec.eq_of_getLsbD_eq fun i hi => ?_
  interval_cases i <;> simp only [BitVec.getLsbD_append, BitVec.getLsbD_extractLsb'] <;> simp

end Sys2Proof
end

