-- ==== Sys2Proof/Laws/State.lean ====
section
/-! SUPPORT. What each state update does to each field, one lemma a field, so that no proof unfolds a record update. -/

namespace Sys2Proof.Machine

variable (s : State)

/-! ### `setReg` -/

@[simp] theorem State.setReg_v (x : Reg) (b : Byte) : (s.setReg x b).v = s.v.set x.val b := rfl
@[simp] theorem State.setReg_i (x : Reg) (b : Byte) : (s.setReg x b).i = s.i := rfl
@[simp] theorem State.setReg_pc (x : Reg) (b : Byte) : (s.setReg x b).pc = s.pc := rfl
@[simp] theorem State.setReg_sp (x : Reg) (b : Byte) : (s.setReg x b).sp = s.sp := rfl
@[simp] theorem State.setReg_stk (x : Reg) (b : Byte) : (s.setReg x b).stk = s.stk := rfl
@[simp] theorem State.setReg_dt (x : Reg) (b : Byte) : (s.setReg x b).dt = s.dt := rfl
@[simp] theorem State.setReg_st (x : Reg) (b : Byte) : (s.setReg x b).st = s.st := rfl
@[simp] theorem State.setReg_disp (x : Reg) (b : Byte) : (s.setReg x b).disp = s.disp := rfl
@[simp] theorem State.setReg_k (x : Reg) (b : Byte) : (s.setReg x b).k = s.k := rfl
@[simp] theorem State.setReg_mem (x : Reg) (b : Byte) : (s.setReg x b).mem = s.mem := rfl
@[simp] theorem State.setReg_sndExpire (x : Reg) (b : Byte) : (s.setReg x b).sndExpire = s.sndExpire := rfl
@[simp] theorem State.setReg_unknown (x : Reg) (b : Byte) : (s.setReg x b).unknown = s.unknown := rfl
@[simp] theorem State.setReg_pause (x : Reg) (b : Byte) : (s.setReg x b).pause = s.pause := rfl
@[simp] theorem State.setReg_rst (x : Reg) (b : Byte) : (s.setReg x b).rst = s.rst := rfl
@[simp] theorem State.setReg_keyIn (x : Reg) (b : Byte) : (s.setReg x b).keyIn = s.keyIn := rfl
@[simp] theorem State.setReg_randIn (x : Reg) (b : Byte) : (s.setReg x b).randIn = s.randIn := rfl
@[simp] theorem State.setReg_cfg (x : Reg) (b : Byte) : (s.setReg x b).cfg = s.cfg := rfl
@[simp] theorem State.setReg_started (x : Reg) (b : Byte) : (s.setReg x b).started = s.started := rfl
@[simp] theorem State.setReg_fresh (x : Reg) (b : Byte) : (s.setReg x b).fresh = s.fresh := rfl
@[simp] theorem State.setReg_byteAt (x : Reg) (b : Byte) (a' : Nat) : (s.setReg x b).byteAt a' = s.byteAt a' := rfl

/-! ### `setFlag` -/

@[simp] theorem State.setFlag_v (b : Byte) : (s.setFlag b).v = s.v.set 15 b := rfl
@[simp] theorem State.setFlag_i (b : Byte) : (s.setFlag b).i = s.i := rfl
@[simp] theorem State.setFlag_pc (b : Byte) : (s.setFlag b).pc = s.pc := rfl
@[simp] theorem State.setFlag_sp (b : Byte) : (s.setFlag b).sp = s.sp := rfl
@[simp] theorem State.setFlag_stk (b : Byte) : (s.setFlag b).stk = s.stk := rfl
@[simp] theorem State.setFlag_dt (b : Byte) : (s.setFlag b).dt = s.dt := rfl
@[simp] theorem State.setFlag_st (b : Byte) : (s.setFlag b).st = s.st := rfl
@[simp] theorem State.setFlag_disp (b : Byte) : (s.setFlag b).disp = s.disp := rfl
@[simp] theorem State.setFlag_k (b : Byte) : (s.setFlag b).k = s.k := rfl
@[simp] theorem State.setFlag_mem (b : Byte) : (s.setFlag b).mem = s.mem := rfl
@[simp] theorem State.setFlag_sndExpire (b : Byte) : (s.setFlag b).sndExpire = s.sndExpire := rfl
@[simp] theorem State.setFlag_unknown (b : Byte) : (s.setFlag b).unknown = s.unknown := rfl
@[simp] theorem State.setFlag_pause (b : Byte) : (s.setFlag b).pause = s.pause := rfl
@[simp] theorem State.setFlag_rst (b : Byte) : (s.setFlag b).rst = s.rst := rfl
@[simp] theorem State.setFlag_keyIn (b : Byte) : (s.setFlag b).keyIn = s.keyIn := rfl
@[simp] theorem State.setFlag_randIn (b : Byte) : (s.setFlag b).randIn = s.randIn := rfl
@[simp] theorem State.setFlag_cfg (b : Byte) : (s.setFlag b).cfg = s.cfg := rfl
@[simp] theorem State.setFlag_started (b : Byte) : (s.setFlag b).started = s.started := rfl
@[simp] theorem State.setFlag_fresh (b : Byte) : (s.setFlag b).fresh = s.fresh := rfl
@[simp] theorem State.setFlag_byteAt (b : Byte) (a' : Nat) : (s.setFlag b).byteAt a' = s.byteAt a' := rfl

/-! ### `setPc` -/

@[simp] theorem State.setPc_v (w : Word) : (s.setPc w).v = s.v := rfl
@[simp] theorem State.setPc_i (w : Word) : (s.setPc w).i = s.i := rfl
@[simp] theorem State.setPc_pc (w : Word) : (s.setPc w).pc = w := rfl
@[simp] theorem State.setPc_sp (w : Word) : (s.setPc w).sp = s.sp := rfl
@[simp] theorem State.setPc_stk (w : Word) : (s.setPc w).stk = s.stk := rfl
@[simp] theorem State.setPc_dt (w : Word) : (s.setPc w).dt = s.dt := rfl
@[simp] theorem State.setPc_st (w : Word) : (s.setPc w).st = s.st := rfl
@[simp] theorem State.setPc_disp (w : Word) : (s.setPc w).disp = s.disp := rfl
@[simp] theorem State.setPc_k (w : Word) : (s.setPc w).k = s.k := rfl
@[simp] theorem State.setPc_mem (w : Word) : (s.setPc w).mem = s.mem := rfl
@[simp] theorem State.setPc_sndExpire (w : Word) : (s.setPc w).sndExpire = s.sndExpire := rfl
@[simp] theorem State.setPc_unknown (w : Word) : (s.setPc w).unknown = s.unknown := rfl
@[simp] theorem State.setPc_pause (w : Word) : (s.setPc w).pause = s.pause := rfl
@[simp] theorem State.setPc_rst (w : Word) : (s.setPc w).rst = s.rst := rfl
@[simp] theorem State.setPc_keyIn (w : Word) : (s.setPc w).keyIn = s.keyIn := rfl
@[simp] theorem State.setPc_randIn (w : Word) : (s.setPc w).randIn = s.randIn := rfl
@[simp] theorem State.setPc_cfg (w : Word) : (s.setPc w).cfg = s.cfg := rfl
@[simp] theorem State.setPc_started (w : Word) : (s.setPc w).started = s.started := rfl
@[simp] theorem State.setPc_fresh (w : Word) : (s.setPc w).fresh = s.fresh := rfl
@[simp] theorem State.setPc_reg (w : Word) (r : Reg) : (s.setPc w).reg r = s.reg r := rfl
@[simp] theorem State.setPc_byteAt (w : Word) (a' : Nat) : (s.setPc w).byteAt a' = s.byteAt a' := rfl

/-! ### `setI` -/

@[simp] theorem State.setI_v (w : Word) : (s.setI w).v = s.v := rfl
@[simp] theorem State.setI_i (w : Word) : (s.setI w).i = w := rfl
@[simp] theorem State.setI_pc (w : Word) : (s.setI w).pc = s.pc := rfl
@[simp] theorem State.setI_sp (w : Word) : (s.setI w).sp = s.sp := rfl
@[simp] theorem State.setI_stk (w : Word) : (s.setI w).stk = s.stk := rfl
@[simp] theorem State.setI_dt (w : Word) : (s.setI w).dt = s.dt := rfl
@[simp] theorem State.setI_st (w : Word) : (s.setI w).st = s.st := rfl
@[simp] theorem State.setI_disp (w : Word) : (s.setI w).disp = s.disp := rfl
@[simp] theorem State.setI_k (w : Word) : (s.setI w).k = s.k := rfl
@[simp] theorem State.setI_mem (w : Word) : (s.setI w).mem = s.mem := rfl
@[simp] theorem State.setI_sndExpire (w : Word) : (s.setI w).sndExpire = s.sndExpire := rfl
@[simp] theorem State.setI_unknown (w : Word) : (s.setI w).unknown = s.unknown := rfl
@[simp] theorem State.setI_pause (w : Word) : (s.setI w).pause = s.pause := rfl
@[simp] theorem State.setI_rst (w : Word) : (s.setI w).rst = s.rst := rfl
@[simp] theorem State.setI_keyIn (w : Word) : (s.setI w).keyIn = s.keyIn := rfl
@[simp] theorem State.setI_randIn (w : Word) : (s.setI w).randIn = s.randIn := rfl
@[simp] theorem State.setI_cfg (w : Word) : (s.setI w).cfg = s.cfg := rfl
@[simp] theorem State.setI_started (w : Word) : (s.setI w).started = s.started := rfl
@[simp] theorem State.setI_fresh (w : Word) : (s.setI w).fresh = s.fresh := rfl
@[simp] theorem State.setI_reg (w : Word) (r : Reg) : (s.setI w).reg r = s.reg r := rfl
@[simp] theorem State.setI_byteAt (w : Word) (a' : Nat) : (s.setI w).byteAt a' = s.byteAt a' := rfl

/-! ### `setDt` -/

@[simp] theorem State.setDt_v (b : Byte) : (s.setDt b).v = s.v := rfl
@[simp] theorem State.setDt_i (b : Byte) : (s.setDt b).i = s.i := rfl
@[simp] theorem State.setDt_pc (b : Byte) : (s.setDt b).pc = s.pc := rfl
@[simp] theorem State.setDt_sp (b : Byte) : (s.setDt b).sp = s.sp := rfl
@[simp] theorem State.setDt_stk (b : Byte) : (s.setDt b).stk = s.stk := rfl
@[simp] theorem State.setDt_dt (b : Byte) : (s.setDt b).dt = b := rfl
@[simp] theorem State.setDt_st (b : Byte) : (s.setDt b).st = s.st := rfl
@[simp] theorem State.setDt_disp (b : Byte) : (s.setDt b).disp = s.disp := rfl
@[simp] theorem State.setDt_k (b : Byte) : (s.setDt b).k = s.k := rfl
@[simp] theorem State.setDt_mem (b : Byte) : (s.setDt b).mem = s.mem := rfl
@[simp] theorem State.setDt_sndExpire (b : Byte) : (s.setDt b).sndExpire = s.sndExpire := rfl
@[simp] theorem State.setDt_unknown (b : Byte) : (s.setDt b).unknown = s.unknown := rfl
@[simp] theorem State.setDt_pause (b : Byte) : (s.setDt b).pause = s.pause := rfl
@[simp] theorem State.setDt_rst (b : Byte) : (s.setDt b).rst = s.rst := rfl
@[simp] theorem State.setDt_keyIn (b : Byte) : (s.setDt b).keyIn = s.keyIn := rfl
@[simp] theorem State.setDt_randIn (b : Byte) : (s.setDt b).randIn = s.randIn := rfl
@[simp] theorem State.setDt_cfg (b : Byte) : (s.setDt b).cfg = s.cfg := rfl
@[simp] theorem State.setDt_started (b : Byte) : (s.setDt b).started = s.started := rfl
@[simp] theorem State.setDt_fresh (b : Byte) : (s.setDt b).fresh = s.fresh := rfl
@[simp] theorem State.setDt_reg (b : Byte) (r : Reg) : (s.setDt b).reg r = s.reg r := rfl
@[simp] theorem State.setDt_byteAt (b : Byte) (a' : Nat) : (s.setDt b).byteAt a' = s.byteAt a' := rfl

/-! ### `setSt` -/

@[simp] theorem State.setSt_v (b : Byte) : (s.setSt b).v = s.v := rfl
@[simp] theorem State.setSt_i (b : Byte) : (s.setSt b).i = s.i := rfl
@[simp] theorem State.setSt_pc (b : Byte) : (s.setSt b).pc = s.pc := rfl
@[simp] theorem State.setSt_sp (b : Byte) : (s.setSt b).sp = s.sp := rfl
@[simp] theorem State.setSt_stk (b : Byte) : (s.setSt b).stk = s.stk := rfl
@[simp] theorem State.setSt_dt (b : Byte) : (s.setSt b).dt = s.dt := rfl
@[simp] theorem State.setSt_st (b : Byte) : (s.setSt b).st = b := rfl
@[simp] theorem State.setSt_disp (b : Byte) : (s.setSt b).disp = s.disp := rfl
@[simp] theorem State.setSt_k (b : Byte) : (s.setSt b).k = s.k := rfl
@[simp] theorem State.setSt_mem (b : Byte) : (s.setSt b).mem = s.mem := rfl
@[simp] theorem State.setSt_sndExpire (b : Byte) : (s.setSt b).sndExpire = s.sndExpire := rfl
@[simp] theorem State.setSt_unknown (b : Byte) : (s.setSt b).unknown = s.unknown := rfl
@[simp] theorem State.setSt_pause (b : Byte) : (s.setSt b).pause = s.pause := rfl
@[simp] theorem State.setSt_rst (b : Byte) : (s.setSt b).rst = s.rst := rfl
@[simp] theorem State.setSt_keyIn (b : Byte) : (s.setSt b).keyIn = s.keyIn := rfl
@[simp] theorem State.setSt_randIn (b : Byte) : (s.setSt b).randIn = s.randIn := rfl
@[simp] theorem State.setSt_cfg (b : Byte) : (s.setSt b).cfg = s.cfg := rfl
@[simp] theorem State.setSt_started (b : Byte) : (s.setSt b).started = s.started := rfl
@[simp] theorem State.setSt_fresh (b : Byte) : (s.setSt b).fresh = s.fresh := rfl
@[simp] theorem State.setSt_reg (b : Byte) (r : Reg) : (s.setSt b).reg r = s.reg r := rfl
@[simp] theorem State.setSt_byteAt (b : Byte) (a' : Nat) : (s.setSt b).byteAt a' = s.byteAt a' := rfl

/-! ### `setDisp` -/

@[simp] theorem State.setDisp_v (d : Display) : (s.setDisp d).v = s.v := rfl
@[simp] theorem State.setDisp_i (d : Display) : (s.setDisp d).i = s.i := rfl
@[simp] theorem State.setDisp_pc (d : Display) : (s.setDisp d).pc = s.pc := rfl
@[simp] theorem State.setDisp_sp (d : Display) : (s.setDisp d).sp = s.sp := rfl
@[simp] theorem State.setDisp_stk (d : Display) : (s.setDisp d).stk = s.stk := rfl
@[simp] theorem State.setDisp_dt (d : Display) : (s.setDisp d).dt = s.dt := rfl
@[simp] theorem State.setDisp_st (d : Display) : (s.setDisp d).st = s.st := rfl
@[simp] theorem State.setDisp_disp (d : Display) : (s.setDisp d).disp = d := rfl
@[simp] theorem State.setDisp_k (d : Display) : (s.setDisp d).k = s.k := rfl
@[simp] theorem State.setDisp_mem (d : Display) : (s.setDisp d).mem = s.mem := rfl
@[simp] theorem State.setDisp_sndExpire (d : Display) : (s.setDisp d).sndExpire = s.sndExpire := rfl
@[simp] theorem State.setDisp_unknown (d : Display) : (s.setDisp d).unknown = s.unknown := rfl
@[simp] theorem State.setDisp_pause (d : Display) : (s.setDisp d).pause = s.pause := rfl
@[simp] theorem State.setDisp_rst (d : Display) : (s.setDisp d).rst = s.rst := rfl
@[simp] theorem State.setDisp_keyIn (d : Display) : (s.setDisp d).keyIn = s.keyIn := rfl
@[simp] theorem State.setDisp_randIn (d : Display) : (s.setDisp d).randIn = s.randIn := rfl
@[simp] theorem State.setDisp_cfg (d : Display) : (s.setDisp d).cfg = s.cfg := rfl
@[simp] theorem State.setDisp_started (d : Display) : (s.setDisp d).started = s.started := rfl
@[simp] theorem State.setDisp_fresh (d : Display) : (s.setDisp d).fresh = s.fresh := rfl
@[simp] theorem State.setDisp_reg (d : Display) (r : Reg) : (s.setDisp d).reg r = s.reg r := rfl
@[simp] theorem State.setDisp_byteAt (d : Display) (a' : Nat) : (s.setDisp d).byteAt a' = s.byteAt a' := rfl

/-! ### `advance` -/

@[simp] theorem State.advance_v : (s.advance).v = s.v := rfl
@[simp] theorem State.advance_i : (s.advance).i = s.i := rfl
@[simp] theorem State.advance_pc : (s.advance).pc = s.pc + 2 := rfl
@[simp] theorem State.advance_sp : (s.advance).sp = s.sp := rfl
@[simp] theorem State.advance_stk : (s.advance).stk = s.stk := rfl
@[simp] theorem State.advance_dt : (s.advance).dt = s.dt := rfl
@[simp] theorem State.advance_st : (s.advance).st = s.st := rfl
@[simp] theorem State.advance_disp : (s.advance).disp = s.disp := rfl
@[simp] theorem State.advance_k : (s.advance).k = s.k := rfl
@[simp] theorem State.advance_mem : (s.advance).mem = s.mem := rfl
@[simp] theorem State.advance_sndExpire : (s.advance).sndExpire = s.sndExpire := rfl
@[simp] theorem State.advance_unknown : (s.advance).unknown = s.unknown := rfl
@[simp] theorem State.advance_pause : (s.advance).pause = s.pause := rfl
@[simp] theorem State.advance_rst : (s.advance).rst = s.rst := rfl
@[simp] theorem State.advance_keyIn : (s.advance).keyIn = s.keyIn := rfl
@[simp] theorem State.advance_randIn : (s.advance).randIn = s.randIn := rfl
@[simp] theorem State.advance_cfg : (s.advance).cfg = s.cfg := rfl
@[simp] theorem State.advance_started : (s.advance).started = s.started := rfl
@[simp] theorem State.advance_fresh : (s.advance).fresh = s.fresh := rfl
@[simp] theorem State.advance_reg (r : Reg) : (s.advance).reg r = s.reg r := rfl
@[simp] theorem State.advance_byteAt (a' : Nat) : (s.advance).byteAt a' = s.byteAt a' := rfl

/-! ### `rewind` -/

@[simp] theorem State.rewind_v : (s.rewind).v = s.v := rfl
@[simp] theorem State.rewind_i : (s.rewind).i = s.i := rfl
@[simp] theorem State.rewind_pc : (s.rewind).pc = s.pc - 2 := rfl
@[simp] theorem State.rewind_sp : (s.rewind).sp = s.sp := rfl
@[simp] theorem State.rewind_stk : (s.rewind).stk = s.stk := rfl
@[simp] theorem State.rewind_dt : (s.rewind).dt = s.dt := rfl
@[simp] theorem State.rewind_st : (s.rewind).st = s.st := rfl
@[simp] theorem State.rewind_disp : (s.rewind).disp = s.disp := rfl
@[simp] theorem State.rewind_k : (s.rewind).k = s.k := rfl
@[simp] theorem State.rewind_mem : (s.rewind).mem = s.mem := rfl
@[simp] theorem State.rewind_sndExpire : (s.rewind).sndExpire = s.sndExpire := rfl
@[simp] theorem State.rewind_unknown : (s.rewind).unknown = s.unknown := rfl
@[simp] theorem State.rewind_pause : (s.rewind).pause = s.pause := rfl
@[simp] theorem State.rewind_rst : (s.rewind).rst = s.rst := rfl
@[simp] theorem State.rewind_keyIn : (s.rewind).keyIn = s.keyIn := rfl
@[simp] theorem State.rewind_randIn : (s.rewind).randIn = s.randIn := rfl
@[simp] theorem State.rewind_cfg : (s.rewind).cfg = s.cfg := rfl
@[simp] theorem State.rewind_started : (s.rewind).started = s.started := rfl
@[simp] theorem State.rewind_fresh : (s.rewind).fresh = s.fresh := rfl
@[simp] theorem State.rewind_reg (r : Reg) : (s.rewind).reg r = s.reg r := rfl
@[simp] theorem State.rewind_byteAt (a' : Nat) : (s.rewind).byteAt a' = s.byteAt a' := rfl

/-! ### `writeByte` -/

@[simp] theorem State.writeByte_v (a : Nat) (b : Byte) : (s.writeByte a b).v = s.v := rfl
@[simp] theorem State.writeByte_i (a : Nat) (b : Byte) : (s.writeByte a b).i = s.i := rfl
@[simp] theorem State.writeByte_pc (a : Nat) (b : Byte) : (s.writeByte a b).pc = s.pc := rfl
@[simp] theorem State.writeByte_sp (a : Nat) (b : Byte) : (s.writeByte a b).sp = s.sp := rfl
@[simp] theorem State.writeByte_stk (a : Nat) (b : Byte) : (s.writeByte a b).stk = s.stk := rfl
@[simp] theorem State.writeByte_dt (a : Nat) (b : Byte) : (s.writeByte a b).dt = s.dt := rfl
@[simp] theorem State.writeByte_st (a : Nat) (b : Byte) : (s.writeByte a b).st = s.st := rfl
@[simp] theorem State.writeByte_disp (a : Nat) (b : Byte) : (s.writeByte a b).disp = s.disp := rfl
@[simp] theorem State.writeByte_k (a : Nat) (b : Byte) : (s.writeByte a b).k = s.k := rfl
@[simp] theorem State.writeByte_mem (a : Nat) (b : Byte) : (s.writeByte a b).mem = Memory.write s.cfg s.mem a b := rfl
@[simp] theorem State.writeByte_sndExpire (a : Nat) (b : Byte) : (s.writeByte a b).sndExpire = s.sndExpire := rfl
@[simp] theorem State.writeByte_unknown (a : Nat) (b : Byte) : (s.writeByte a b).unknown = s.unknown := rfl
@[simp] theorem State.writeByte_pause (a : Nat) (b : Byte) : (s.writeByte a b).pause = s.pause := rfl
@[simp] theorem State.writeByte_rst (a : Nat) (b : Byte) : (s.writeByte a b).rst = s.rst := rfl
@[simp] theorem State.writeByte_keyIn (a : Nat) (b : Byte) : (s.writeByte a b).keyIn = s.keyIn := rfl
@[simp] theorem State.writeByte_randIn (a : Nat) (b : Byte) : (s.writeByte a b).randIn = s.randIn := rfl
@[simp] theorem State.writeByte_cfg (a : Nat) (b : Byte) : (s.writeByte a b).cfg = s.cfg := rfl
@[simp] theorem State.writeByte_started (a : Nat) (b : Byte) : (s.writeByte a b).started = s.started := rfl
@[simp] theorem State.writeByte_fresh (a : Nat) (b : Byte) : (s.writeByte a b).fresh = s.fresh := rfl
@[simp] theorem State.writeByte_reg (a : Nat) (b : Byte) (r : Reg) : (s.writeByte a b).reg r = s.reg r := rfl

/-! ### `drawn` -/

@[simp] theorem State.drawn_v : (s.drawn).v = s.v := rfl
@[simp] theorem State.drawn_i : (s.drawn).i = s.i := rfl
@[simp] theorem State.drawn_pc : (s.drawn).pc = s.pc := rfl
@[simp] theorem State.drawn_sp : (s.drawn).sp = s.sp := rfl
@[simp] theorem State.drawn_stk : (s.drawn).stk = s.stk := rfl
@[simp] theorem State.drawn_dt : (s.drawn).dt = s.dt := rfl
@[simp] theorem State.drawn_st : (s.drawn).st = s.st := rfl
@[simp] theorem State.drawn_disp : (s.drawn).disp = s.disp := rfl
@[simp] theorem State.drawn_k : (s.drawn).k = s.k := rfl
@[simp] theorem State.drawn_mem : (s.drawn).mem = s.mem := rfl
@[simp] theorem State.drawn_sndExpire : (s.drawn).sndExpire = s.sndExpire := rfl
@[simp] theorem State.drawn_unknown : (s.drawn).unknown = s.unknown := rfl
@[simp] theorem State.drawn_pause : (s.drawn).pause = s.pause := rfl
@[simp] theorem State.drawn_rst : (s.drawn).rst = s.rst := rfl
@[simp] theorem State.drawn_keyIn : (s.drawn).keyIn = s.keyIn := rfl
@[simp] theorem State.drawn_randIn : (s.drawn).randIn = Config.randByte s.fresh := rfl
@[simp] theorem State.drawn_cfg : (s.drawn).cfg = s.cfg := rfl
@[simp] theorem State.drawn_started : (s.drawn).started = s.started := rfl
@[simp] theorem State.drawn_fresh : (s.drawn).fresh = s.fresh + 1 := rfl
@[simp] theorem State.drawn_reg (r : Reg) : (s.drawn).reg r = s.reg r := rfl
@[simp] theorem State.drawn_byteAt (a' : Nat) : (s.drawn).byteAt a' = s.byteAt a' := rfl

/-! ### `sampleKeys` -/

@[simp] theorem State.sampleKeys_v : (s.sampleKeys).v = s.v := rfl
@[simp] theorem State.sampleKeys_i : (s.sampleKeys).i = s.i := rfl
@[simp] theorem State.sampleKeys_pc : (s.sampleKeys).pc = s.pc := rfl
@[simp] theorem State.sampleKeys_sp : (s.sampleKeys).sp = s.sp := rfl
@[simp] theorem State.sampleKeys_stk : (s.sampleKeys).stk = s.stk := rfl
@[simp] theorem State.sampleKeys_dt : (s.sampleKeys).dt = s.dt := rfl
@[simp] theorem State.sampleKeys_st : (s.sampleKeys).st = s.st := rfl
@[simp] theorem State.sampleKeys_disp : (s.sampleKeys).disp = s.disp := rfl
@[simp] theorem State.sampleKeys_k : (s.sampleKeys).k = s.keyIn := rfl
@[simp] theorem State.sampleKeys_mem : (s.sampleKeys).mem = s.mem := rfl
@[simp] theorem State.sampleKeys_sndExpire : (s.sampleKeys).sndExpire = s.sndExpire := rfl
@[simp] theorem State.sampleKeys_unknown : (s.sampleKeys).unknown = s.unknown := rfl
@[simp] theorem State.sampleKeys_pause : (s.sampleKeys).pause = s.pause := rfl
@[simp] theorem State.sampleKeys_rst : (s.sampleKeys).rst = s.rst := rfl
@[simp] theorem State.sampleKeys_keyIn : (s.sampleKeys).keyIn = Config.keyLevels s.fresh := rfl
@[simp] theorem State.sampleKeys_randIn : (s.sampleKeys).randIn = s.randIn := rfl
@[simp] theorem State.sampleKeys_cfg : (s.sampleKeys).cfg = s.cfg := rfl
@[simp] theorem State.sampleKeys_started : (s.sampleKeys).started = s.started := rfl
@[simp] theorem State.sampleKeys_fresh : (s.sampleKeys).fresh = s.fresh + 1 := rfl
@[simp] theorem State.sampleKeys_reg (r : Reg) : (s.sampleKeys).reg r = s.reg r := rfl
@[simp] theorem State.sampleKeys_byteAt (a' : Nat) : (s.sampleKeys).byteAt a' = s.byteAt a' := rfl

/-! ### `tickSound` -/

@[simp] theorem State.tickSound_v : (s.tickSound).v = s.v := rfl
@[simp] theorem State.tickSound_i : (s.tickSound).i = s.i := rfl
@[simp] theorem State.tickSound_pc : (s.tickSound).pc = s.pc := rfl
@[simp] theorem State.tickSound_sp : (s.tickSound).sp = s.sp := rfl
@[simp] theorem State.tickSound_stk : (s.tickSound).stk = s.stk := rfl
@[simp] theorem State.tickSound_dt : (s.tickSound).dt = s.dt := rfl
@[simp] theorem State.tickSound_st : (s.tickSound).st = countdown s.st := rfl
@[simp] theorem State.tickSound_disp : (s.tickSound).disp = s.disp := rfl
@[simp] theorem State.tickSound_k : (s.tickSound).k = s.k := rfl
@[simp] theorem State.tickSound_mem : (s.tickSound).mem = s.mem := rfl
@[simp] theorem State.tickSound_sndExpire : (s.tickSound).sndExpire = (s.st == 1) := rfl
@[simp] theorem State.tickSound_unknown : (s.tickSound).unknown = s.unknown := rfl
@[simp] theorem State.tickSound_pause : (s.tickSound).pause = s.pause := rfl
@[simp] theorem State.tickSound_rst : (s.tickSound).rst = s.rst := rfl
@[simp] theorem State.tickSound_keyIn : (s.tickSound).keyIn = s.keyIn := rfl
@[simp] theorem State.tickSound_randIn : (s.tickSound).randIn = s.randIn := rfl
@[simp] theorem State.tickSound_cfg : (s.tickSound).cfg = s.cfg := rfl
@[simp] theorem State.tickSound_started : (s.tickSound).started = s.started := rfl
@[simp] theorem State.tickSound_fresh : (s.tickSound).fresh = s.fresh := rfl
@[simp] theorem State.tickSound_reg (r : Reg) : (s.tickSound).reg r = s.reg r := rfl
@[simp] theorem State.tickSound_byteAt (a' : Nat) : (s.tickSound).byteAt a' = s.byteAt a' := rfl

/-! ### `tickDelay` -/

@[simp] theorem State.tickDelay_v : (s.tickDelay).v = s.v := rfl
@[simp] theorem State.tickDelay_i : (s.tickDelay).i = s.i := rfl
@[simp] theorem State.tickDelay_pc : (s.tickDelay).pc = s.pc := rfl
@[simp] theorem State.tickDelay_sp : (s.tickDelay).sp = s.sp := rfl
@[simp] theorem State.tickDelay_stk : (s.tickDelay).stk = s.stk := rfl
@[simp] theorem State.tickDelay_dt : (s.tickDelay).dt = countdown s.dt := rfl
@[simp] theorem State.tickDelay_st : (s.tickDelay).st = s.st := rfl
@[simp] theorem State.tickDelay_disp : (s.tickDelay).disp = s.disp := rfl
@[simp] theorem State.tickDelay_k : (s.tickDelay).k = s.k := rfl
@[simp] theorem State.tickDelay_mem : (s.tickDelay).mem = s.mem := rfl
@[simp] theorem State.tickDelay_sndExpire : (s.tickDelay).sndExpire = s.sndExpire := rfl
@[simp] theorem State.tickDelay_unknown : (s.tickDelay).unknown = s.unknown := rfl
@[simp] theorem State.tickDelay_pause : (s.tickDelay).pause = s.pause := rfl
@[simp] theorem State.tickDelay_rst : (s.tickDelay).rst = s.rst := rfl
@[simp] theorem State.tickDelay_keyIn : (s.tickDelay).keyIn = s.keyIn := rfl
@[simp] theorem State.tickDelay_randIn : (s.tickDelay).randIn = s.randIn := rfl
@[simp] theorem State.tickDelay_cfg : (s.tickDelay).cfg = s.cfg := rfl
@[simp] theorem State.tickDelay_started : (s.tickDelay).started = s.started := rfl
@[simp] theorem State.tickDelay_fresh : (s.tickDelay).fresh = s.fresh := rfl
@[simp] theorem State.tickDelay_reg (r : Reg) : (s.tickDelay).reg r = s.reg r := rfl
@[simp] theorem State.tickDelay_byteAt (a' : Nat) : (s.tickDelay).byteAt a' = s.byteAt a' := rfl

/-! ### `report` -/

@[simp] theorem State.report_v (w a : Word) : (s.report w a).v = s.v := rfl
@[simp] theorem State.report_i (w a : Word) : (s.report w a).i = s.i := rfl
@[simp] theorem State.report_pc (w a : Word) : (s.report w a).pc = s.pc := rfl
@[simp] theorem State.report_sp (w a : Word) : (s.report w a).sp = s.sp := rfl
@[simp] theorem State.report_stk (w a : Word) : (s.report w a).stk = s.stk := rfl
@[simp] theorem State.report_dt (w a : Word) : (s.report w a).dt = s.dt := rfl
@[simp] theorem State.report_st (w a : Word) : (s.report w a).st = s.st := rfl
@[simp] theorem State.report_disp (w a : Word) : (s.report w a).disp = s.disp := rfl
@[simp] theorem State.report_k (w a : Word) : (s.report w a).k = s.k := rfl
@[simp] theorem State.report_mem (w a : Word) : (s.report w a).mem = s.mem := rfl
@[simp] theorem State.report_sndExpire (w a : Word) : (s.report w a).sndExpire = s.sndExpire := rfl
@[simp] theorem State.report_unknown (w a : Word) : (s.report w a).unknown = some ⟨w, a⟩ := rfl
@[simp] theorem State.report_pause (w a : Word) : (s.report w a).pause = s.pause := rfl
@[simp] theorem State.report_rst (w a : Word) : (s.report w a).rst = s.rst := rfl
@[simp] theorem State.report_keyIn (w a : Word) : (s.report w a).keyIn = s.keyIn := rfl
@[simp] theorem State.report_randIn (w a : Word) : (s.report w a).randIn = s.randIn := rfl
@[simp] theorem State.report_cfg (w a : Word) : (s.report w a).cfg = s.cfg := rfl
@[simp] theorem State.report_started (w a : Word) : (s.report w a).started = s.started := rfl
@[simp] theorem State.report_fresh (w a : Word) : (s.report w a).fresh = s.fresh := rfl
@[simp] theorem State.report_reg (w a : Word) (r : Reg) : (s.report w a).reg r = s.reg r := rfl
@[simp] theorem State.report_byteAt (w a : Word) (a' : Nat) : (s.report w a).byteAt a' = s.byteAt a' := rfl

/-! ### `beginTick` -/

@[simp] theorem State.beginTick_v : (s.beginTick).v = s.v := rfl
@[simp] theorem State.beginTick_i : (s.beginTick).i = s.i := rfl
@[simp] theorem State.beginTick_pc : (s.beginTick).pc = s.pc := rfl
@[simp] theorem State.beginTick_sp : (s.beginTick).sp = s.sp := rfl
@[simp] theorem State.beginTick_stk : (s.beginTick).stk = s.stk := rfl
@[simp] theorem State.beginTick_dt : (s.beginTick).dt = s.dt := rfl
@[simp] theorem State.beginTick_st : (s.beginTick).st = s.st := rfl
@[simp] theorem State.beginTick_disp : (s.beginTick).disp = s.disp := rfl
@[simp] theorem State.beginTick_k : (s.beginTick).k = s.k := rfl
@[simp] theorem State.beginTick_mem : (s.beginTick).mem = s.mem := rfl
@[simp] theorem State.beginTick_sndExpire : (s.beginTick).sndExpire = s.sndExpire := rfl
@[simp] theorem State.beginTick_unknown : (s.beginTick).unknown = none := rfl
@[simp] theorem State.beginTick_pause : (s.beginTick).pause = s.pause := rfl
@[simp] theorem State.beginTick_rst : (s.beginTick).rst = s.rst := rfl
@[simp] theorem State.beginTick_keyIn : (s.beginTick).keyIn = s.keyIn := rfl
@[simp] theorem State.beginTick_randIn : (s.beginTick).randIn = s.randIn := rfl
@[simp] theorem State.beginTick_cfg : (s.beginTick).cfg = s.cfg := rfl
@[simp] theorem State.beginTick_started : (s.beginTick).started = true := rfl
@[simp] theorem State.beginTick_fresh : (s.beginTick).fresh = s.fresh := rfl
@[simp] theorem State.beginTick_reg (r : Reg) : (s.beginTick).reg r = s.reg r := rfl
@[simp] theorem State.beginTick_byteAt (a' : Nat) : (s.beginTick).byteAt a' = s.byteAt a' := rfl

/-! ### `prologue` -/

@[simp] theorem State.prologue_v : (s.prologue).v = s.v := rfl
@[simp] theorem State.prologue_i : (s.prologue).i = s.i := rfl
@[simp] theorem State.prologue_pc : (s.prologue).pc = s.pc := rfl
@[simp] theorem State.prologue_sp : (s.prologue).sp = s.sp := rfl
@[simp] theorem State.prologue_stk : (s.prologue).stk = s.stk := rfl
@[simp] theorem State.prologue_dt : (s.prologue).dt = countdown s.dt := rfl
@[simp] theorem State.prologue_st : (s.prologue).st = countdown s.st := rfl
@[simp] theorem State.prologue_disp : (s.prologue).disp = s.disp := rfl
@[simp] theorem State.prologue_k : (s.prologue).k = s.keyIn := rfl
@[simp] theorem State.prologue_mem : (s.prologue).mem = s.mem := rfl
@[simp] theorem State.prologue_sndExpire : (s.prologue).sndExpire = (s.st == 1) := rfl
@[simp] theorem State.prologue_unknown : (s.prologue).unknown = none := rfl
@[simp] theorem State.prologue_pause : (s.prologue).pause = s.pause := rfl
@[simp] theorem State.prologue_rst : (s.prologue).rst = s.rst := rfl
@[simp] theorem State.prologue_keyIn : (s.prologue).keyIn = Config.keyLevels s.fresh := rfl
@[simp] theorem State.prologue_randIn : (s.prologue).randIn = s.randIn := rfl
@[simp] theorem State.prologue_cfg : (s.prologue).cfg = s.cfg := rfl
@[simp] theorem State.prologue_started : (s.prologue).started = true := rfl
@[simp] theorem State.prologue_fresh : (s.prologue).fresh = s.fresh + 1 := rfl
@[simp] theorem State.prologue_reg (r : Reg) : (s.prologue).reg r = s.reg r := rfl
@[simp] theorem State.prologue_byteAt (a' : Nat) : (s.prologue).byteAt a' = s.byteAt a' := rfl

/-! ### `loadRegs` -/

@[simp] theorem State.loadRegs_v (x : Reg) : (s.loadRegs x).v = Vector.ofFn (fun r : Reg => if r ≤ x then s.byteAt (s.i.toNat + r.val) else s.reg r) := rfl
@[simp] theorem State.loadRegs_i (x : Reg) : (s.loadRegs x).i = s.i := rfl
@[simp] theorem State.loadRegs_pc (x : Reg) : (s.loadRegs x).pc = s.pc := rfl
@[simp] theorem State.loadRegs_sp (x : Reg) : (s.loadRegs x).sp = s.sp := rfl
@[simp] theorem State.loadRegs_stk (x : Reg) : (s.loadRegs x).stk = s.stk := rfl
@[simp] theorem State.loadRegs_dt (x : Reg) : (s.loadRegs x).dt = s.dt := rfl
@[simp] theorem State.loadRegs_st (x : Reg) : (s.loadRegs x).st = s.st := rfl
@[simp] theorem State.loadRegs_disp (x : Reg) : (s.loadRegs x).disp = s.disp := rfl
@[simp] theorem State.loadRegs_k (x : Reg) : (s.loadRegs x).k = s.k := rfl
@[simp] theorem State.loadRegs_mem (x : Reg) : (s.loadRegs x).mem = s.mem := rfl
@[simp] theorem State.loadRegs_sndExpire (x : Reg) : (s.loadRegs x).sndExpire = s.sndExpire := rfl
@[simp] theorem State.loadRegs_unknown (x : Reg) : (s.loadRegs x).unknown = s.unknown := rfl
@[simp] theorem State.loadRegs_pause (x : Reg) : (s.loadRegs x).pause = s.pause := rfl
@[simp] theorem State.loadRegs_rst (x : Reg) : (s.loadRegs x).rst = s.rst := rfl
@[simp] theorem State.loadRegs_keyIn (x : Reg) : (s.loadRegs x).keyIn = s.keyIn := rfl
@[simp] theorem State.loadRegs_randIn (x : Reg) : (s.loadRegs x).randIn = s.randIn := rfl
@[simp] theorem State.loadRegs_cfg (x : Reg) : (s.loadRegs x).cfg = s.cfg := rfl
@[simp] theorem State.loadRegs_started (x : Reg) : (s.loadRegs x).started = s.started := rfl
@[simp] theorem State.loadRegs_fresh (x : Reg) : (s.loadRegs x).fresh = s.fresh := rfl
@[simp] theorem State.loadRegs_byteAt (x : Reg) (a' : Nat) : (s.loadRegs x).byteAt a' = s.byteAt a' := rfl

/-! ### `driveKeys` -/

@[simp] theorem State.driveKeys_v (w : Word) : (s.driveKeys w).v = s.v := rfl
@[simp] theorem State.driveKeys_i (w : Word) : (s.driveKeys w).i = s.i := rfl
@[simp] theorem State.driveKeys_pc (w : Word) : (s.driveKeys w).pc = s.pc := rfl
@[simp] theorem State.driveKeys_sp (w : Word) : (s.driveKeys w).sp = s.sp := rfl
@[simp] theorem State.driveKeys_stk (w : Word) : (s.driveKeys w).stk = s.stk := rfl
@[simp] theorem State.driveKeys_dt (w : Word) : (s.driveKeys w).dt = s.dt := rfl
@[simp] theorem State.driveKeys_st (w : Word) : (s.driveKeys w).st = s.st := rfl
@[simp] theorem State.driveKeys_disp (w : Word) : (s.driveKeys w).disp = s.disp := rfl
@[simp] theorem State.driveKeys_k (w : Word) : (s.driveKeys w).k = s.k := rfl
@[simp] theorem State.driveKeys_mem (w : Word) : (s.driveKeys w).mem = s.mem := rfl
@[simp] theorem State.driveKeys_sndExpire (w : Word) : (s.driveKeys w).sndExpire = s.sndExpire := rfl
@[simp] theorem State.driveKeys_unknown (w : Word) : (s.driveKeys w).unknown = s.unknown := rfl
@[simp] theorem State.driveKeys_pause (w : Word) : (s.driveKeys w).pause = s.pause := rfl
@[simp] theorem State.driveKeys_rst (w : Word) : (s.driveKeys w).rst = s.rst := rfl
@[simp] theorem State.driveKeys_keyIn (w : Word) : (s.driveKeys w).keyIn = w := rfl
@[simp] theorem State.driveKeys_randIn (w : Word) : (s.driveKeys w).randIn = s.randIn := rfl
@[simp] theorem State.driveKeys_cfg (w : Word) : (s.driveKeys w).cfg = s.cfg := rfl
@[simp] theorem State.driveKeys_started (w : Word) : (s.driveKeys w).started = s.started := rfl
@[simp] theorem State.driveKeys_fresh (w : Word) : (s.driveKeys w).fresh = s.fresh := rfl
@[simp] theorem State.driveKeys_reg (w : Word) (r : Reg) : (s.driveKeys w).reg r = s.reg r := rfl
@[simp] theorem State.driveKeys_byteAt (w : Word) (a' : Nat) : (s.driveKeys w).byteAt a' = s.byteAt a' := rfl

/-! ### `drivePause` -/

@[simp] theorem State.drivePause_v (c : Bool) : (s.drivePause c).v = s.v := rfl
@[simp] theorem State.drivePause_i (c : Bool) : (s.drivePause c).i = s.i := rfl
@[simp] theorem State.drivePause_pc (c : Bool) : (s.drivePause c).pc = s.pc := rfl
@[simp] theorem State.drivePause_sp (c : Bool) : (s.drivePause c).sp = s.sp := rfl
@[simp] theorem State.drivePause_stk (c : Bool) : (s.drivePause c).stk = s.stk := rfl
@[simp] theorem State.drivePause_dt (c : Bool) : (s.drivePause c).dt = s.dt := rfl
@[simp] theorem State.drivePause_st (c : Bool) : (s.drivePause c).st = s.st := rfl
@[simp] theorem State.drivePause_disp (c : Bool) : (s.drivePause c).disp = s.disp := rfl
@[simp] theorem State.drivePause_k (c : Bool) : (s.drivePause c).k = s.k := rfl
@[simp] theorem State.drivePause_mem (c : Bool) : (s.drivePause c).mem = s.mem := rfl
@[simp] theorem State.drivePause_sndExpire (c : Bool) : (s.drivePause c).sndExpire = s.sndExpire := rfl
@[simp] theorem State.drivePause_unknown (c : Bool) : (s.drivePause c).unknown = s.unknown := rfl
@[simp] theorem State.drivePause_pause (c : Bool) : (s.drivePause c).pause = c := rfl
@[simp] theorem State.drivePause_rst (c : Bool) : (s.drivePause c).rst = s.rst := rfl
@[simp] theorem State.drivePause_keyIn (c : Bool) : (s.drivePause c).keyIn = s.keyIn := rfl
@[simp] theorem State.drivePause_randIn (c : Bool) : (s.drivePause c).randIn = s.randIn := rfl
@[simp] theorem State.drivePause_cfg (c : Bool) : (s.drivePause c).cfg = s.cfg := rfl
@[simp] theorem State.drivePause_started (c : Bool) : (s.drivePause c).started = s.started := rfl
@[simp] theorem State.drivePause_fresh (c : Bool) : (s.drivePause c).fresh = s.fresh := rfl
@[simp] theorem State.drivePause_reg (c : Bool) (r : Reg) : (s.drivePause c).reg r = s.reg r := rfl
@[simp] theorem State.drivePause_byteAt (c : Bool) (a' : Nat) : (s.drivePause c).byteAt a' = s.byteAt a' := rfl

/-! ### `driveRand` -/

@[simp] theorem State.driveRand_v (b : Byte) : (s.driveRand b).v = s.v := rfl
@[simp] theorem State.driveRand_i (b : Byte) : (s.driveRand b).i = s.i := rfl
@[simp] theorem State.driveRand_pc (b : Byte) : (s.driveRand b).pc = s.pc := rfl
@[simp] theorem State.driveRand_sp (b : Byte) : (s.driveRand b).sp = s.sp := rfl
@[simp] theorem State.driveRand_stk (b : Byte) : (s.driveRand b).stk = s.stk := rfl
@[simp] theorem State.driveRand_dt (b : Byte) : (s.driveRand b).dt = s.dt := rfl
@[simp] theorem State.driveRand_st (b : Byte) : (s.driveRand b).st = s.st := rfl
@[simp] theorem State.driveRand_disp (b : Byte) : (s.driveRand b).disp = s.disp := rfl
@[simp] theorem State.driveRand_k (b : Byte) : (s.driveRand b).k = s.k := rfl
@[simp] theorem State.driveRand_mem (b : Byte) : (s.driveRand b).mem = s.mem := rfl
@[simp] theorem State.driveRand_sndExpire (b : Byte) : (s.driveRand b).sndExpire = s.sndExpire := rfl
@[simp] theorem State.driveRand_unknown (b : Byte) : (s.driveRand b).unknown = s.unknown := rfl
@[simp] theorem State.driveRand_pause (b : Byte) : (s.driveRand b).pause = s.pause := rfl
@[simp] theorem State.driveRand_rst (b : Byte) : (s.driveRand b).rst = s.rst := rfl
@[simp] theorem State.driveRand_keyIn (b : Byte) : (s.driveRand b).keyIn = s.keyIn := rfl
@[simp] theorem State.driveRand_randIn (b : Byte) : (s.driveRand b).randIn = b := rfl
@[simp] theorem State.driveRand_cfg (b : Byte) : (s.driveRand b).cfg = s.cfg := rfl
@[simp] theorem State.driveRand_started (b : Byte) : (s.driveRand b).started = s.started := rfl
@[simp] theorem State.driveRand_fresh (b : Byte) : (s.driveRand b).fresh = s.fresh := rfl
@[simp] theorem State.driveRand_reg (b : Byte) (r : Reg) : (s.driveRand b).reg r = s.reg r := rfl
@[simp] theorem State.driveRand_byteAt (b : Byte) (a' : Nat) : (s.driveRand b).byteAt a' = s.byteAt a' := rfl

/-! ### `assertReset` -/

@[simp] theorem State.assertReset_v : s.assertReset.v = Vector.replicate 16 0 := rfl
@[simp] theorem State.assertReset_i : s.assertReset.i = 0 := rfl
@[simp] theorem State.assertReset_pc : s.assertReset.pc = s.cfg.resetPc := rfl
@[simp] theorem State.assertReset_sp : s.assertReset.sp = 0 := rfl
@[simp] theorem State.assertReset_stk : s.assertReset.stk = Vector.replicate 16 0 := rfl
@[simp] theorem State.assertReset_dt : s.assertReset.dt = 0 := rfl
@[simp] theorem State.assertReset_st : s.assertReset.st = 0 := rfl
@[simp] theorem State.assertReset_disp : s.assertReset.disp = Vector.replicate 32 0 := rfl
@[simp] theorem State.assertReset_k : s.assertReset.k = 0 := rfl
@[simp] theorem State.assertReset_mem : s.assertReset.mem = [] := rfl
@[simp] theorem State.assertReset_sndExpire : s.assertReset.sndExpire = false := rfl
@[simp] theorem State.assertReset_unknown : s.assertReset.unknown = none := rfl
@[simp] theorem State.assertReset_pause : s.assertReset.pause = s.pause := rfl
@[simp] theorem State.assertReset_rst : s.assertReset.rst = s.rst := rfl
@[simp] theorem State.assertReset_keyIn : s.assertReset.keyIn = s.keyIn := rfl
@[simp] theorem State.assertReset_randIn : s.assertReset.randIn = s.randIn := rfl
@[simp] theorem State.assertReset_cfg : s.assertReset.cfg = s.cfg := rfl
@[simp] theorem State.assertReset_started : s.assertReset.started = false := rfl
@[simp] theorem State.assertReset_fresh : s.assertReset.fresh = s.fresh := rfl
@[simp] theorem State.assertReset_reg (r : Reg) : s.assertReset.reg r = 0 := by
  simp [State.reg]
@[simp] theorem State.assertReset_byteAt (a' : Nat) : s.assertReset.byteAt a' = s.cfg.initByte a' := rfl

/-! ### `driveRst`: asserting is the reset transition, lowering touches the level only -/

@[simp] theorem State.driveRst_true : s.driveRst true = { s.assertReset with rst := true } := rfl
@[simp] theorem State.driveRst_false : s.driveRst false = { s with rst := false } := rfl
@[simp] theorem State.driveRst_rst (c : Bool) : (s.driveRst c).rst = c := by
  cases c <;> rfl
@[simp] theorem State.driveRst_cfg (c : Bool) : (s.driveRst c).cfg = s.cfg := by
  cases c <;> rfl

end Sys2Proof.Machine
end

