-- ==== Sys2Proof/Laws/Memory.lean ====
section
/-! SUPPORT. The laws of memory: a read after a write, and that every memory operation keeps the canonical form. -/

namespace Sys2Proof.Machine

variable {p : Params} {m : Memory}

theorem Memory.read_nil (a : Nat) : Memory.read p [] a = p.initByte a := rfl

/-- Removing the cells of one address leaves every other address alone. -/
theorem Memory.read_filter_ne {a a' : Nat} (h : a' ≠ a) :
    Memory.read p (m.filter (fun c => c.1 != a)) a' = Memory.read p m a' := by
  unfold Memory.read
  rw [List.find?_filter]
  congr 2
  funext c
  by_cases hc : c.1 = a' <;> simp [hc, h]

/-- With its cells removed an address reads as unlisted. -/
theorem Memory.read_filter_self (a : Nat) : Memory.read p (m.filter (fun c => c.1 != a)) a = p.initByte a := by
  unfold Memory.read
  rw [List.find?_filter, List.find?_eq_none.2]
  intro c _
  simp

theorem Memory.read_place_self (a : Nat) (b : Byte) (h : ∀ c ∈ m, c.1 ≠ a) :
    Memory.read p (Memory.place a b m) a = b := by
  induction m with
  | nil => simp [Memory.place, Memory.read]
  | cons c rest ih =>
    have hc : c.1 ≠ a := h c (by simp)
    have hrest := ih (fun d hd => h d (by simp [hd]))
    unfold Memory.place
    split
    · simp [Memory.read]
    · simpa [Memory.read, hc] using hrest

theorem Memory.read_place_ne {a a' : Nat} (b : Byte) (h : a' ≠ a) :
    Memory.read p (Memory.place a b m) a' = Memory.read p m a' := by
  induction m with
  | nil => simp [Memory.place, Memory.read, Ne.symm h]
  | cons c rest ih =>
    unfold Memory.place
    split
    · simp [Memory.read, Ne.symm h]
    · by_cases hc : c.1 = a'
      · simp [Memory.read, hc]
      · simpa [Memory.read, hc] using ih

/-- A read after a write to the same address gives the byte written. -/
theorem Memory.read_write_self (a : Nat) (b : Byte) : Memory.read p (Memory.write p m a b) a = b := by
  unfold Memory.write
  simp only
  split
  · rename_i h
    rw [Memory.read_filter_self, h]
  · apply Memory.read_place_self
    intro c hc
    simpa using (List.mem_filter.1 hc).2

/-- A write leaves every other address alone. -/
theorem Memory.read_write_ne {a a' : Nat} (b : Byte) (h : a' ≠ a) :
    Memory.read p (Memory.write p m a b) a' = Memory.read p m a' := by
  unfold Memory.write
  simp only
  split
  · exact Memory.read_filter_ne h
  · rw [Memory.read_place_ne b h, Memory.read_filter_ne h]

theorem Memory.mem_place {a : Nat} {b : Byte} {c : Host.Cell} : c ∈ Memory.place a b m ↔ c = (a, b) ∨ c ∈ m := by
  induction m with
  | nil => simp [Memory.place]
  | cons d rest ih =>
    unfold Memory.place
    split
    · simp
    · simp only [List.mem_cons, ih]
      tauto

theorem Memory.place_sorted {a : Nat} {b : Byte} (hm : m.Pairwise (fun c d => c.1 < d.1)) (h : ∀ c ∈ m, c.1 ≠ a) :
    (Memory.place a b m).Pairwise (fun c d => c.1 < d.1) := by
  induction m with
  | nil => simp [Memory.place]
  | cons d rest ih =>
    obtain ⟨hd, hrest⟩ := List.pairwise_cons.1 hm
    have hda : d.1 ≠ a := h d (by simp)
    unfold Memory.place
    split
    · rename_i hlt
      refine List.pairwise_cons.2 ⟨fun c hc => ?_, hm⟩
      rcases List.mem_cons.1 hc with rfl | hc
      · exact hlt
      · exact lt_trans hlt (hd c hc)
    · refine List.pairwise_cons.2 ⟨fun c hc => ?_, ih hrest (fun c hc => h c (by simp [hc]))⟩
      rcases Memory.mem_place.1 hc with rfl | hc
      · simp only
        omega
      · exact hd c hc

/-- A write inside memory keeps the canonical form. -/
theorem Memory.write_wf {a : Nat} (b : Byte) (hm : Memory.wf p m) (ha : a < memSize) :
    Memory.wf p (Memory.write p m a b) := by
  obtain ⟨hs, hc⟩ := hm
  have hs' : (m.filter (fun c => c.1 != a)).Pairwise (fun c d => c.1 < d.1) := hs.filter _
  have hc' : ∀ c ∈ m.filter (fun c => c.1 != a), c.1 < memSize ∧ c.2 ≠ p.initByte c.1 :=
    fun c h => hc c (List.mem_filter.1 h).1
  unfold Memory.write
  simp only
  split
  · exact ⟨hs', hc'⟩
  · rename_i hb
    refine ⟨Memory.place_sorted hs' (fun c h => ?_), fun c h => ?_⟩
    · simpa using (List.mem_filter.1 h).2
    · rcases Memory.mem_place.1 h with rfl | h
      · exact ⟨ha, hb⟩
      · exact hc' c h

/-! ### The same for the state's memory -/

theorem State.byteAt_writeByte (s : State) (a a' : Nat) (b : Byte) :
    (s.writeByte a b).byteAt a' = if a' = a then b else s.byteAt a' := by
  split
  · rename_i h
    subst h
    exact Memory.read_write_self a' b
  · rename_i h
    exact Memory.read_write_ne b h

/-- A run of writes changes `mem` only. -/
theorem State.writeBytes_eq (bs : List Byte) : ∀ (s : State) (a : Nat),
    s.writeBytes a bs = { s with mem := (s.writeBytes a bs).mem } := by
  induction bs with
  | nil => intro s a; rfl
  | cons b rest ih =>
    intro s a
    simp only [State.writeBytes]
    rw [ih (s.writeByte a b) (a + 1)]
    rfl

/-- A run of writes puts its bytes at ascending addresses and leaves every other address alone. -/
theorem State.byteAt_writeBytes (bs : List Byte) : ∀ (s : State) (a a' : Nat),
    (s.writeBytes a bs).byteAt a' =
      if a ≤ a' ∧ a' < a + bs.length then bs[a' - a]?.getD 0 else s.byteAt a' := by
  induction bs with
  | nil =>
    intro s a a'
    simp only [State.writeBytes, List.length_nil]
    rw [if_neg (by omega)]
  | cons b rest ih =>
    intro s a a'
    simp only [State.writeBytes, ih, State.byteAt_writeByte, List.length_cons]
    by_cases h1 : a' = a
    · subst h1
      rw [if_neg (by omega), if_pos rfl, if_pos (by omega)]
      simp
    · by_cases h2 : a + 1 ≤ a' ∧ a' < a + 1 + rest.length
      · rw [if_pos h2, if_pos (by omega), show a' - a = (a' - (a + 1)) + 1 by omega, List.getElem?_cons_succ]
      · rw [if_neg h2, if_neg h1, if_neg (by omega)]

/-- A run of writes inside memory keeps the canonical form. -/
theorem State.writeBytes_wf (bs : List Byte) : ∀ (s : State) (a : Nat), Memory.wf s.cfg s.mem →
    a + bs.length ≤ memSize → Memory.wf s.cfg (s.writeBytes a bs).mem := by
  induction bs with
  | nil => intro s a h _; exact h
  | cons b rest ih =>
    intro s a h hlen
    simp only [List.length_cons] at hlen
    exact ih (s.writeByte a b) (a + 1) (Memory.write_wf b h (by omega)) (by omega)

/-- The memory of `State.reset` is in canonical form. -/
theorem reset_memory_wf : Memory.wf State.reset.cfg State.reset.mem := by
  simp [Memory.wf, State.reset, State.construct]

end Sys2Proof.Machine
end

