-- ==== Sys2Proof/Laws/Ops.lean ====
section
/-! SUPPORT. For each shared operation, what it can do, said once. -/

namespace Sys2Proof.Machine

variable (s : State)

/-! ### Results -/

theorem orFault_ok {α : Type} (a : α) (next : α → Result) : orFault (.ok a) next = next a := rfl

theorem orFault_error {α : Type} (f : Fault) (next : α → Result) : orFault (.error f) next = .fault f := rfl

/-- `orFault` answers a next state exactly when the value is there and what follows does. -/
theorem orFault_eq_next {α : Type} {e : Except Fault α} {next : α → Result} {t : State} :
    orFault e next = .next t ↔ ∃ a, e = .ok a ∧ next a = .next t := by
  cases e <;> simp [orFault]

/-- `orFault` refuses only when what follows the value does. -/
theorem orFault_eq_refused {α : Type} {e : Except Fault α} {next : α → Result} {r : Refusal} :
    orFault e next = .refused r ↔ ∃ a, e = .ok a ∧ next a = .refused r := by
  cases e <;> simp [orFault]

theorem andThen_eq_next {r : Result} {f : State → Result} {t : State} :
    andThen r f = .next t ↔ ∃ u, r = .next u ∧ f u = .next t := by
  cases r <;> simp [andThen]

theorem andThen_eq_refused {r : Result} {f : State → Result} {q : Refusal} :
    andThen r f = .refused q ↔ r = .refused q ∨ ∃ u, r = .next u ∧ f u = .refused q := by
  cases r <;> simp [andThen]

/-- An access inside memory goes on; any other is the fault with the lowest address above 0xFFF. -/
theorem withAccess_eq_next {n : Nat} {r : Result} {t : State} :
    s.withAccess n r = .next t ↔ (n = 0 ∨ s.i.toNat + n ≤ memSize) ∧ r = .next t := by
  unfold State.withAccess
  split <;> simp_all

theorem withAccess_inside {n : Nat} (r : Result) (h : n = 0 ∨ s.i.toNat + n ≤ memSize) : s.withAccess n r = r :=
  if_pos h

theorem withAccess_outside {n : Nat} (r : Result) (hn : n ≠ 0) (h : memSize < s.i.toNat + n) :
    s.withAccess n r = .fault (.memOutOfRange s.instrPc (max s.i.toNat memSize)) := by
  unfold State.withAccess
  rw [if_neg]
  omega

theorem withAccess_ne_refused {n : Nat} {r : Result} {q : Refusal} (h : s.withAccess n r = .refused q) :
    r = .refused q := by
  unfold State.withAccess at h
  split at h <;> simp_all

/-! ### Registers -/

theorem reg_setReg (x r : Reg) (b : Byte) : (s.setReg x b).reg r = if r = x then b else s.reg r := by
  unfold State.reg State.setReg
  simp only [Vector.getElem_set, Fin.ext_iff, eq_comm]

theorem reg_setFlag (r : Reg) (b : Byte) : (s.setFlag b).reg r = if r = 15 then b else s.reg r :=
  reg_setReg s 15 r b

@[simp] theorem reg_setReg_self (x : Reg) (b : Byte) : (s.setReg x b).reg x = b := by
  simp [reg_setReg]

/-- A register is 8 bits of `v`: equal registers are equal register files. -/
theorem v_ext {v w : Vector Byte 16} (h : ∀ r : Reg, v[r.val] = w[r.val]) : v = w :=
  Vector.ext fun r hr => h ⟨r, hr⟩

/-! ### Runs of writes -/

@[simp] theorem State.writeBytes_v (a : Nat) (bs : List Byte) : (s.writeBytes a bs).v = s.v := by
  rw [State.writeBytes_eq]
@[simp] theorem State.writeBytes_i (a : Nat) (bs : List Byte) : (s.writeBytes a bs).i = s.i := by
  rw [State.writeBytes_eq]
@[simp] theorem State.writeBytes_pc (a : Nat) (bs : List Byte) : (s.writeBytes a bs).pc = s.pc := by
  rw [State.writeBytes_eq]
@[simp] theorem State.writeBytes_sp (a : Nat) (bs : List Byte) : (s.writeBytes a bs).sp = s.sp := by
  rw [State.writeBytes_eq]
@[simp] theorem State.writeBytes_stk (a : Nat) (bs : List Byte) : (s.writeBytes a bs).stk = s.stk := by
  rw [State.writeBytes_eq]
@[simp] theorem State.writeBytes_dt (a : Nat) (bs : List Byte) : (s.writeBytes a bs).dt = s.dt := by
  rw [State.writeBytes_eq]
@[simp] theorem State.writeBytes_st (a : Nat) (bs : List Byte) : (s.writeBytes a bs).st = s.st := by
  rw [State.writeBytes_eq]
@[simp] theorem State.writeBytes_disp (a : Nat) (bs : List Byte) : (s.writeBytes a bs).disp = s.disp := by
  rw [State.writeBytes_eq]
@[simp] theorem State.writeBytes_k (a : Nat) (bs : List Byte) : (s.writeBytes a bs).k = s.k := by
  rw [State.writeBytes_eq]
@[simp] theorem State.writeBytes_sndExpire (a : Nat) (bs : List Byte) : (s.writeBytes a bs).sndExpire = s.sndExpire := by
  rw [State.writeBytes_eq]
@[simp] theorem State.writeBytes_unknown (a : Nat) (bs : List Byte) : (s.writeBytes a bs).unknown = s.unknown := by
  rw [State.writeBytes_eq]
@[simp] theorem State.writeBytes_pause (a : Nat) (bs : List Byte) : (s.writeBytes a bs).pause = s.pause := by
  rw [State.writeBytes_eq]
@[simp] theorem State.writeBytes_rst (a : Nat) (bs : List Byte) : (s.writeBytes a bs).rst = s.rst := by
  rw [State.writeBytes_eq]
@[simp] theorem State.writeBytes_keyIn (a : Nat) (bs : List Byte) : (s.writeBytes a bs).keyIn = s.keyIn := by
  rw [State.writeBytes_eq]
@[simp] theorem State.writeBytes_randIn (a : Nat) (bs : List Byte) : (s.writeBytes a bs).randIn = s.randIn := by
  rw [State.writeBytes_eq]
@[simp] theorem State.writeBytes_cfg (a : Nat) (bs : List Byte) : (s.writeBytes a bs).cfg = s.cfg := by
  rw [State.writeBytes_eq]
@[simp] theorem State.writeBytes_started (a : Nat) (bs : List Byte) : (s.writeBytes a bs).started = s.started := by
  rw [State.writeBytes_eq]
@[simp] theorem State.writeBytes_fresh (a : Nat) (bs : List Byte) : (s.writeBytes a bs).fresh = s.fresh := by
  rw [State.writeBytes_eq]

@[simp] theorem State.writeBytes_reg (a : Nat) (bs : List Byte) (r : Reg) : (s.writeBytes a bs).reg r = s.reg r := by
  simp [State.reg]

/-! ### The block transfers' side effect on `I` -/

/-- `afterTransfer` changes `I` only. -/
theorem State.afterTransfer_eq (x : Reg) : s.afterTransfer x = s.setI (s.afterTransfer x).i := by
  unfold State.afterTransfer
  split <;> rfl

theorem State.afterTransfer_i (x : Reg) :
    (s.afterTransfer x).i = if s.cfg.qMemInc = .legacy then s.indexPlus (x.val + 1) else s.i := by
  unfold State.afterTransfer
  split <;> rename_i h <;> simp [h]

@[simp] theorem State.afterTransfer_v (x : Reg) : (s.afterTransfer x).v = s.v := by
  rw [State.afterTransfer_eq, State.setI_v]
@[simp] theorem State.afterTransfer_pc (x : Reg) : (s.afterTransfer x).pc = s.pc := by
  rw [State.afterTransfer_eq, State.setI_pc]
@[simp] theorem State.afterTransfer_sp (x : Reg) : (s.afterTransfer x).sp = s.sp := by
  rw [State.afterTransfer_eq, State.setI_sp]
@[simp] theorem State.afterTransfer_stk (x : Reg) : (s.afterTransfer x).stk = s.stk := by
  rw [State.afterTransfer_eq, State.setI_stk]
@[simp] theorem State.afterTransfer_dt (x : Reg) : (s.afterTransfer x).dt = s.dt := by
  rw [State.afterTransfer_eq, State.setI_dt]
@[simp] theorem State.afterTransfer_st (x : Reg) : (s.afterTransfer x).st = s.st := by
  rw [State.afterTransfer_eq, State.setI_st]
@[simp] theorem State.afterTransfer_disp (x : Reg) : (s.afterTransfer x).disp = s.disp := by
  rw [State.afterTransfer_eq, State.setI_disp]
@[simp] theorem State.afterTransfer_k (x : Reg) : (s.afterTransfer x).k = s.k := by
  rw [State.afterTransfer_eq, State.setI_k]
@[simp] theorem State.afterTransfer_sndExpire (x : Reg) : (s.afterTransfer x).sndExpire = s.sndExpire := by
  rw [State.afterTransfer_eq, State.setI_sndExpire]
@[simp] theorem State.afterTransfer_unknown (x : Reg) : (s.afterTransfer x).unknown = s.unknown := by
  rw [State.afterTransfer_eq, State.setI_unknown]
@[simp] theorem State.afterTransfer_pause (x : Reg) : (s.afterTransfer x).pause = s.pause := by
  rw [State.afterTransfer_eq, State.setI_pause]
@[simp] theorem State.afterTransfer_rst (x : Reg) : (s.afterTransfer x).rst = s.rst := by
  rw [State.afterTransfer_eq, State.setI_rst]
@[simp] theorem State.afterTransfer_keyIn (x : Reg) : (s.afterTransfer x).keyIn = s.keyIn := by
  rw [State.afterTransfer_eq, State.setI_keyIn]
@[simp] theorem State.afterTransfer_randIn (x : Reg) : (s.afterTransfer x).randIn = s.randIn := by
  rw [State.afterTransfer_eq, State.setI_randIn]
@[simp] theorem State.afterTransfer_cfg (x : Reg) : (s.afterTransfer x).cfg = s.cfg := by
  rw [State.afterTransfer_eq, State.setI_cfg]
@[simp] theorem State.afterTransfer_started (x : Reg) : (s.afterTransfer x).started = s.started := by
  rw [State.afterTransfer_eq, State.setI_started]
@[simp] theorem State.afterTransfer_fresh (x : Reg) : (s.afterTransfer x).fresh = s.fresh := by
  rw [State.afterTransfer_eq, State.setI_fresh]
@[simp] theorem State.afterTransfer_mem (x : Reg) : (s.afterTransfer x).mem = s.mem := by
  rw [State.afterTransfer_eq, State.setI_mem]

@[simp] theorem State.afterTransfer_reg (x r : Reg) : (s.afterTransfer x).reg r = s.reg r := by
  simp [State.reg]

@[simp] theorem State.afterTransfer_byteAt (x : Reg) (a : Nat) : (s.afterTransfer x).byteAt a = s.byteAt a := by
  simp [State.byteAt]

/-- The sum on `I` is kept to 12 bits. -/
theorem indexPlus_lt (n : Nat) : (s.indexPlus n).toNat < 4096 := by
  unfold State.indexPlus memSize
  rw [BitVec.toNat_ofNat]
  omega

theorem reg_loadRegs (x r : Reg) :
    (s.loadRegs x).reg r = if r ≤ x then s.byteAt (s.i.toNat + r.val) else s.reg r := by
  simp [State.reg, State.loadRegs]

/-! ### The call stack -/

/-- Push fills the next slot and counts it. -/
theorem push_ok (w : Word) (h : s.sp.val < 16) :
    s.push w = .ok { s with stk := s.stk.set s.sp.val w, sp := ⟨s.sp.val + 1, by omega⟩ } :=
  dif_pos h

theorem push_full (w : Word) (h : ¬ s.sp.val < 16) : s.push w = .error (.stackOverflow s.instrPc) :=
  dif_neg h

/-- Pop hands back the newest entry and keeps its slot. -/
theorem pop_ok (h : 0 < s.sp.val) :
    s.pop = .ok ({ s with sp := ⟨s.sp.val - 1, by omega⟩ }, s.stk[s.sp.val - 1]) :=
  dif_pos h

theorem pop_empty (h : ¬ 0 < s.sp.val) : s.pop = .error (.stackUnderflow s.instrPc) :=
  dif_neg h

/-! ### Operands -/

theorem keyOperand_eq_ok {x : Reg} {n : Nat} :
    s.keyOperand x = .ok n ↔ (s.reg x).toNat ≤ 15 ∧ n = (s.reg x).toNat := by
  unfold State.keyOperand
  split <;> simp_all [eq_comm]

theorem glyphOperand_eq_ok {x : Reg} {n : Nat} :
    s.glyphOperand x = .ok n ↔ (s.reg x).toNat ≤ 15 ∧ n = (s.reg x).toNat := by
  unfold State.glyphOperand
  split <;> simp_all [eq_comm]

/-- The reported key is down and no smaller one is. -/
theorem lowestKey_eq_some {j : Nat} :
    s.lowestKey = some j ↔ j < 16 ∧ s.keyDown j = true ∧ ∀ i < j, s.keyDown i = false := by
  unfold State.lowestKey
  rw [List.find?_range_eq_some]
  simp only [List.mem_range, Bool.not_eq_eq_eq_not, Bool.not_true]
  tauto

/-- No key is reported exactly when none is down. -/
theorem lowestKey_eq_none : s.lowestKey = none ↔ ∀ j < 16, s.keyDown j = false := by
  unfold State.lowestKey
  simp

/-- No key is reported exactly when the latch is 0. -/
theorem lowestKey_eq_none_iff_zero : s.lowestKey = none ↔ s.k = 0 := by
  rw [lowestKey_eq_none]
  constructor
  · intro h
    refine BitVec.eq_of_getLsbD_eq fun i hi => ?_
    simpa [State.keyDown] using h i hi
  · intro h j _
    simp [State.keyDown, h]

/-! ### Flags and skips -/

theorem flagOf_toNat (c : Bool) : (flagOf c).toNat = c.toNat := by
  cases c <;> rfl

theorem lowBitFlag_toNat (b : Byte) : (lowBitFlag b).toNat = b.toNat % 2 := by
  unfold lowBitFlag
  rw [flagOf_toNat, BitVec.getLsbD, Nat.testBit_zero]
  by_cases h : b.toNat % 2 = 1 <;> simp [h]
  omega

theorem highBitFlag_toNat (b : Byte) : (highBitFlag b).toNat = b.toNat / 128 := by
  unfold highBitFlag
  have := b.isLt
  rw [flagOf_toNat, BitVec.getLsbD, Nat.testBit_eq_decide_div_mod_eq, show (2 : Nat) ^ 7 = 128 from rfl]
  by_cases h : b.toNat / 128 % 2 = 1 <;>
    simp only [h, decide_true, decide_false, Bool.toNat_true, Bool.toNat_false] <;> omega

/-- A skip always goes on and moves `PC` only. -/
theorem skipIf_eq (c : Bool) : skipIf c s = .next { s with pc := if c = true then s.pc + 2 else s.pc } := by
  cases c <;> rfl

/-! ### Timers -/

theorem countdown_toNat (t : Byte) : (countdown t).toNat = t.toNat - 1 := by
  unfold countdown
  split
  · rename_i h
    simp [h]
  · rename_i h
    have : t.toNat ≠ 0 := fun h0 => h (BitVec.eq_of_toNat_eq (by simpa using h0))
    bv_omega

/-! ### The display -/

/-- Column `x` of a sprite row placed at column `x0`: bit `7 - (x - x0)` of the byte where the sprite lies, else nothing. -/
theorem spriteMask_pixel (b : Byte) (x0 x : Nat) (hx : x < 64) :
    (spriteMask b x0).getMsbD x = (decide (x0 ≤ x ∧ x < x0 + 8) && b.getMsbD (x - x0)) := by
  unfold spriteMask
  rw [BitVec.getMsbD_ushiftRight, BitVec.getMsbD_shiftLeft, BitVec.getMsbD_setWidth]
  by_cases h1 : x0 ≤ x
  · by_cases h2 : x < x0 + 8
    · simp [h1, h2, hx]
    · have h3 : b.getMsbD (x - x0) = false := by
        rw [BitVec.getMsbD, decide_eq_false (by omega), Bool.false_and]
      simp [h2, h3]
  · simp [h1]

/-- The sprite's pixel at a place of the display. -/
theorem spriteOn_pixel (x y : Reg) (n : RowCount) (row col : Nat) (hcol : col < 64) :
    (s.spriteOn x y n row).getMsbD col =
      (decide (s.originY y ≤ row ∧ row < s.originY y + s.spriteRows y n ∧
          s.originX x ≤ col ∧ col < s.originX x + 8) &&
        (s.byteAt (s.i.toNat + (row - s.originY y))).getMsbD (col - s.originX x)) := by
  unfold State.spriteOn
  split
  · rename_i h
    rw [spriteMask_pixel _ _ _ hcol]
    simp [h.1, h.2]
  · rename_i h
    have : ¬ (s.originY y ≤ row ∧ row < s.originY y + s.spriteRows y n ∧
        s.originX x ≤ col ∧ col < s.originX x + 8) := fun h' => h ⟨h'.1, h'.2.1⟩
    rw [decide_eq_false this]
    simp

/-- A drawn display's pixel: the old pixel XOR the sprite's. -/
theorem blit_pixel (x y : Reg) (n : RowCount) (row col : Nat) (hrow : row < 32) :
    (s.blit x y n).pixel row col = (s.disp.pixel row col ^^ (s.spriteOn x y n row).getMsbD col) := by
  simp [Display.pixel, State.blit, hrow]

/-- A 64-bit row is not 0 exactly when some column of it is set. -/
theorem row_ne_zero (w : BitVec 64) : w ≠ 0 ↔ ∃ c < 64, w.getMsbD c = true := by
  constructor
  · intro h
    by_contra hc
    refine h (BitVec.eq_of_getMsbD_eq fun i hi => ?_)
    by_contra hne
    exact hc ⟨i, hi, by simpa using hne⟩
  · rintro ⟨c, _, hc⟩ rfl
    simp at hc

/-- A collision: somewhere a set sprite bit meets a set pixel. -/
theorem collides_iff (x y : Reg) (n : RowCount) :
    s.collides x y n = true ↔
      ∃ row < 32, ∃ col < 64, s.disp.pixel row col = true ∧ (s.spriteOn x y n row).getMsbD col = true := by
  unfold State.collides
  simp only [List.any_eq_true, List.mem_finRange, true_and, bne_iff_ne]
  constructor
  · rintro ⟨row, h⟩
    obtain ⟨c, hc, hbit⟩ := (row_ne_zero _).1 h
    refine ⟨row.val, row.isLt, c, hc, ?_⟩
    simpa [Display.pixel, Vector.getElem?_eq_getElem] using hbit
  · rintro ⟨row, hrow, c, hc, h1, h2⟩
    refine ⟨⟨row, hrow⟩, (row_ne_zero _).2 ⟨c, hc, ?_⟩⟩
    simpa [Display.pixel, hrow, Vector.getElem?_eq_getElem, h2] using h1

end Sys2Proof.Machine
end

