-- ==== Sys2Proof/Laws/PerInstr.lean ====
section
/-! SUPPORT. Statements made per instruction.  MatchesRow: the word of an instruction is one of the words its row of the opcode
table selects, for every operand (30_encoding.md R64). -/

namespace Sys2Proof.Laws.MatchesRow

/-- The instruction's row selects its word: `encode i & mask = match`. -/
def Statement (i : Instr) : Prop := i.row.selects (encode i) = true

theorem cls : Statement .cls := rfl

theorem ret : Statement .ret := rfl

theorem sys (nnn : Addr) : Statement (.sys nnn) := by
  simp only [Statement, Row.selects, Instr.row, encode, packNNN_mask]
  rfl

theorem jp (nnn : Addr) : Statement (.jp nnn) := by
  simp only [Statement, Row.selects, Instr.row, encode, packNNN_mask]
  rfl

theorem call (nnn : Addr) : Statement (.call nnn) := by
  simp only [Statement, Row.selects, Instr.row, encode, packNNN_mask]
  rfl

theorem seImm (x : Reg) (nn : Byte) : Statement (.seImm x nn) := by
  simp only [Statement, Row.selects, Instr.row, encode, packXNN_mask]
  rfl

theorem sneImm (x : Reg) (nn : Byte) : Statement (.sneImm x nn) := by
  simp only [Statement, Row.selects, Instr.row, encode, packXNN_mask]
  rfl

theorem seReg (x : Reg) (y : Reg) : Statement (.seReg x y) := by
  simp only [Statement, Row.selects, Instr.row, encode, packXYN_nibbleMask]
  rfl

theorem ldImm (x : Reg) (nn : Byte) : Statement (.ldImm x nn) := by
  simp only [Statement, Row.selects, Instr.row, encode, packXNN_mask]
  rfl

theorem addImm (x : Reg) (nn : Byte) : Statement (.addImm x nn) := by
  simp only [Statement, Row.selects, Instr.row, encode, packXNN_mask]
  rfl

theorem ldReg (x : Reg) (y : Reg) : Statement (.ldReg x y) := by
  simp only [Statement, Row.selects, Instr.row, encode, packXYN_nibbleMask]
  rfl

theorem orReg (x : Reg) (y : Reg) : Statement (.orReg x y) := by
  simp only [Statement, Row.selects, Instr.row, encode, packXYN_nibbleMask]
  rfl

theorem andReg (x : Reg) (y : Reg) : Statement (.andReg x y) := by
  simp only [Statement, Row.selects, Instr.row, encode, packXYN_nibbleMask]
  rfl

theorem xorReg (x : Reg) (y : Reg) : Statement (.xorReg x y) := by
  simp only [Statement, Row.selects, Instr.row, encode, packXYN_nibbleMask]
  rfl

theorem addReg (x : Reg) (y : Reg) : Statement (.addReg x y) := by
  simp only [Statement, Row.selects, Instr.row, encode, packXYN_nibbleMask]
  rfl

theorem sub (x : Reg) (y : Reg) : Statement (.sub x y) := by
  simp only [Statement, Row.selects, Instr.row, encode, packXYN_nibbleMask]
  rfl

theorem shr (x : Reg) (y : Reg) : Statement (.shr x y) := by
  simp only [Statement, Row.selects, Instr.row, encode, packXYN_nibbleMask]
  rfl

theorem subn (x : Reg) (y : Reg) : Statement (.subn x y) := by
  simp only [Statement, Row.selects, Instr.row, encode, packXYN_nibbleMask]
  rfl

theorem shl (x : Reg) (y : Reg) : Statement (.shl x y) := by
  simp only [Statement, Row.selects, Instr.row, encode, packXYN_nibbleMask]
  rfl

theorem sneReg (x : Reg) (y : Reg) : Statement (.sneReg x y) := by
  simp only [Statement, Row.selects, Instr.row, encode, packXYN_nibbleMask]
  rfl

theorem ldI (nnn : Addr) : Statement (.ldI nnn) := by
  simp only [Statement, Row.selects, Instr.row, encode, packNNN_mask]
  rfl

theorem jpOffset (nnn : Addr) : Statement (.jpOffset nnn) := by
  simp only [Statement, Row.selects, Instr.row, encode, packNNN_mask]
  rfl

theorem rnd (x : Reg) (nn : Byte) : Statement (.rnd x nn) := by
  simp only [Statement, Row.selects, Instr.row, encode, packXNN_mask]
  rfl

theorem drw (x : Reg) (y : Reg) (n : RowCount) : Statement (.drw x y n) := by
  simp only [Statement, Row.selects, Instr.row, encode, packXYN_mask]
  rfl

theorem skp (x : Reg) : Statement (.skp x) := by
  simp only [Statement, Row.selects, Instr.row, encode, packXNN_byteMask]
  rfl

theorem sknp (x : Reg) : Statement (.sknp x) := by
  simp only [Statement, Row.selects, Instr.row, encode, packXNN_byteMask]
  rfl

theorem ldVxDt (x : Reg) : Statement (.ldVxDt x) := by
  simp only [Statement, Row.selects, Instr.row, encode, packXNN_byteMask]
  rfl

theorem ldVxK (x : Reg) : Statement (.ldVxK x) := by
  simp only [Statement, Row.selects, Instr.row, encode, packXNN_byteMask]
  rfl

theorem ldDtVx (x : Reg) : Statement (.ldDtVx x) := by
  simp only [Statement, Row.selects, Instr.row, encode, packXNN_byteMask]
  rfl

theorem ldStVx (x : Reg) : Statement (.ldStVx x) := by
  simp only [Statement, Row.selects, Instr.row, encode, packXNN_byteMask]
  rfl

theorem addIVx (x : Reg) : Statement (.addIVx x) := by
  simp only [Statement, Row.selects, Instr.row, encode, packXNN_byteMask]
  rfl

theorem ldFVx (x : Reg) : Statement (.ldFVx x) := by
  simp only [Statement, Row.selects, Instr.row, encode, packXNN_byteMask]
  rfl

theorem ldBVx (x : Reg) : Statement (.ldBVx x) := by
  simp only [Statement, Row.selects, Instr.row, encode, packXNN_byteMask]
  rfl

theorem ldMemVx (x : Reg) : Statement (.ldMemVx x) := by
  simp only [Statement, Row.selects, Instr.row, encode, packXNN_byteMask]
  rfl

theorem ldVxMem (x : Reg) : Statement (.ldVxMem x) := by
  simp only [Statement, Row.selects, Instr.row, encode, packXNN_byteMask]
  rfl

theorem unknown (w : Word) : Statement (.unknown w) := by
  simp [Statement, Row.selects, Instr.row]

end Sys2Proof.Laws.MatchesRow
end

