-- ==== Sys2Proof/Laws/Step.lean ====
section
/-! SUPPORT. What fetching, one instruction step and a frame tick can do, said once. -/

namespace Sys2Proof.Machine

variable (s : State)

theorem fetch_inside (h : s.pc.toNat + 2 ≤ memSize) :
    fetch s = .ok (wordOfBytes (s.byteAt s.pc.toNat) (s.byteAt (s.pc.toNat + 1))) := if_pos h

theorem fetch_outside (h : ¬ s.pc.toNat + 2 ≤ memSize) :
    fetch s = .error (.memOutOfRange s.pc (max s.pc.toNat memSize)) := if_neg h

/-- A step that goes on has fetched both bytes inside memory and executed the word found there. -/
theorem cycle_eq_next {t : State} :
    cycle s = .next t ↔ s.pc.toNat + 2 ≤ memSize ∧
      exec (decodeWord (wordOfBytes (s.byteAt s.pc.toNat) (s.byteAt (s.pc.toNat + 1)))) s.advance = .next t := by
  unfold cycle
  rw [orFault_eq_next]
  by_cases h : s.pc.toNat + 2 ≤ memSize
  · simp [fetch_inside s h, h]
  · simp [fetch_outside s h, h]

/-- An instruction step inside memory is the decoded instruction at the advanced state. -/
theorem cycle_inside {i : Instr} (h : s.pc.toNat + 2 ≤ memSize)
    (hd : decodeWord (wordOfBytes (s.byteAt s.pc.toNat) (s.byteAt (s.pc.toNat + 1))) = i) : cycle s = exec i s.advance := by
  unfold cycle
  rw [fetch_inside s h, orFault_ok, hd]

/-- The pixels a sprite sets are the ones Safety.lean describes by row and column. -/
theorem spriteOn_eq_true_iff (x y : Reg) (n : RowCount) (row col : Nat) (hrow : row < 32) (hcol : col < 64) :
    (s.spriteOn x y n row).getMsbD col = true ↔ SpriteBit s x y n row col := by
  rw [spriteOn_pixel s x y n row col hcol]
  unfold SpriteBit State.spriteRows State.originX State.originY
  simp only [Bool.and_eq_true, decide_eq_true_eq, BitVec.getMsbD]
  constructor
  · rintro ⟨⟨h1, h2, h3, h4⟩, h5, h6⟩
    refine ⟨row - (s.reg y).toNat % 32, col - (s.reg x).toNat % 64, by omega, by omega, by omega, by omega, ?_⟩
    simpa using h6
  · rintro ⟨r, c, h1, h2, h3, h4, h5⟩
    subst h3 h4
    refine ⟨⟨by omega, by omega, by omega, by omega⟩, by omega, ?_⟩
    simpa [Nat.add_sub_cancel_left] using h5

/-- What every instruction step keeps, every run of instruction steps keeps. -/
theorem cycles_keeps (P : State → Prop) (hstep : ∀ u v, cycle u = .next v → P u → P v) :
    ∀ (n : Nat) (u v : State), cycles n u = .next v → P u → P v := by
  intro n
  induction n with
  | zero =>
    intro u v h hP
    rw [cycles] at h
    cases h
    exact hP
  | succ n ih =>
    intro u v h hP
    rw [cycles, andThen_eq_next] at h
    obtain ⟨w, h1, h2⟩ := h
    exact ih w v h2 (hstep u w h1 hP)

theorem cycles_one : cycles 1 s = cycle s := by
  unfold cycles andThen
  cases cycle s <;> rfl

/-- The three ways a step goes on: reset asserted, paused, or a frame tick. -/
theorem step_eq_next {t : State} (h : step s = .next t) :
    (s.rst = true ∧ t = s.assertReset) ∨
    (s.rst = false ∧ s.pause = true ∧ t = s) ∨
    (s.rst = false ∧ s.pause = false ∧ cycles (s.cfg.extraPerTick + 1) s.prologue = .next t) := by
  unfold step frameTick Params.instrPerTick at h
  cases hr : s.rst <;> simp only [hr] at h
  · cases hp : s.pause <;> simp only [hp] at h
    · exact .inr (.inr ⟨rfl, rfl, h⟩)
    · exact .inr (.inl ⟨rfl, rfl, by simpa using h.symm⟩)
  · exact .inl ⟨rfl, by simpa using h.symm⟩

/-- With neither reset nor pause asserted a step is the prologue and then the tick's instructions. -/
theorem step_tick (hr : s.rst = false) (hp : s.pause = false) :
    step s = cycles (s.cfg.extraPerTick + 1) s.prologue := by
  simp [step, frameTick, Params.instrPerTick, hr, hp]

end Sys2Proof.Machine
end

