-- ==== Sys2Proof/Laws/Words.lean ====
section
/-! SUPPORT. The words of Safety.lean, written by their nibbles, are the words of Decode.lean's formats. -/

namespace Sys2Proof.Machine

/-- Joining two bit vectors as a sum. -/
theorem toNat_append_add {m n : Nat} (a : BitVec m) (b : BitVec n) : (a ++ b).toNat = a.toNat * 2 ^ n + b.toNat := by
  rw [BitVec.toNat_append, ← Nat.shiftLeft_add_eq_or_of_lt b.isLt, Nat.shiftLeft_eq]

/-- A word by its nibbles is the packed word. -/
theorem wordNNN_eq_pack (op : BitVec 4) (nnn : Addr) : wordNNN op.toNat nnn.toNat = packNNN op nnn := by
  apply BitVec.eq_of_toNat_eq
  have h1 := op.isLt
  have h2 := nnn.isLt
  unfold wordNNN packNNN
  rw [BitVec.toNat_ofNat, toNat_append_add]
  omega

theorem wordXNN_eq_pack (op : BitVec 4) (x : Reg) (nn : Byte) :
    wordXNN op.toNat x.val nn.toNat = packXNN op x nn := by
  apply BitVec.eq_of_toNat_eq
  have h1 := op.isLt
  have h2 := x.isLt
  have h3 := nn.isLt
  unfold wordXNN packXNN
  rw [BitVec.toNat_ofNat, toNat_append_add, toNat_append_add]
  simp only [BitVec.toNat_ofFin]
  omega

theorem wordXYN_eq_pack (op : BitVec 4) (x y : Reg) (n : BitVec 4) :
    wordXYN op.toNat x.val y.val n.toNat = packXYN op x y n := by
  apply BitVec.eq_of_toNat_eq
  have h1 := op.isLt
  have h2 := x.isLt
  have h3 := y.isLt
  have h4 := n.isLt
  unfold wordXYN packXYN
  rw [BitVec.toNat_ofNat, toNat_append_add, toNat_append_add, toNat_append_add]
  simp only [BitVec.toNat_ofFin]
  omega
end Sys2Proof.Machine
end

