-- ==== Sys2Proof/Tests/Slice0.lean ====
section
/-! SUPPORT. Tests of the model.  Expected values come from spec/95_test_vectors.md (the vector's name stands in the comment)
and from the encodings of 30_encoding.md R64; nothing here is a statement for the provers. -/

namespace Sys2Proof.Tests

open Sys2Proof Sys2Proof.Machine

/-! ### Well-formed terms -/

/-- 00E0 is CLS and 00EE is RET, so no SYS term stands for them; every other constant is SYS (R64 row 1). -/
theorem test_wellFormed_sys :
    (Instr.sys 0x0E0).wellFormed = false ∧ (Instr.sys 0x0EE).wellFormed = false ∧
    (Instr.sys 0x0E1).wellFormed = true ∧ (Instr.sys 0x000).wellFormed = true := by decide

/-- 1200 is JP, 8125 is SUB and 0123 is SYS, so no UNKNOWN term stands for them; 8128 and E19F match no row (R65). -/
theorem test_wellFormed_unknown :
    (Instr.unknown 0x1200).wellFormed = false ∧ (Instr.unknown 0x8125).wellFormed = false ∧
    (Instr.unknown 0x0123).wellFormed = false ∧ (Instr.unknown 0x8128).wellFormed = true ∧
    (Instr.unknown 0xE19F).wellFormed = true := by decide

/-- Any two named rows differ at a bit both of them fix, but for CLS and RET, which come before SYS (opcode_table.json). -/
theorem test_rows_do_not_overlap :
    namedRows.Pairwise (fun r q =>
      (r.matchBits ^^^ q.matchBits) &&& r.mask &&& q.mask ≠ 0 ∨ (r.priority ≤ 2 ∧ q.priority = 3)) := by decide

/-! ### Decoding: words written out from R64 -/

theorem test_decode_control :
    decodeWord 0x00EE = .ret ∧ decodeWord 0x0123 = .sys 0x123 ∧ decodeWord 0x0000 = .sys 0 ∧
    decodeWord 0x1ABC = .jp 0xABC ∧ decodeWord 0x2DEF = .call 0xDEF ∧ decodeWord 0xB987 = .jpOffset 0x987 := by decide

theorem test_decode_skip :
    decodeWord 0x3A42 = .seImm 10 0x42 ∧ decodeWord 0x4B17 = .sneImm 11 0x17 ∧ decodeWord 0x5C30 = .seReg 12 3 ∧
    decodeWord 0x9D20 = .sneReg 13 2 := by decide

theorem test_decode_immediate :
    decodeWord 0x61F0 = .ldImm 1 0xF0 ∧ decodeWord 0x7E0D = .addImm 14 0x0D ∧ decodeWord 0xA345 = .ldI 0x345 ∧
    decodeWord 0xC20F = .rnd 2 0x0F := by decide

theorem test_decode_alu :
    decodeWord 0x8A40 = .ldReg 10 4 ∧ decodeWord 0x8A41 = .orReg 10 4 ∧ decodeWord 0x8A42 = .andReg 10 4 ∧
    decodeWord 0x8A43 = .xorReg 10 4 ∧ decodeWord 0x8A44 = .addReg 10 4 ∧ decodeWord 0x8A45 = .sub 10 4 ∧
    decodeWord 0x8A46 = .shr 10 4 ∧ decodeWord 0x8A47 = .subn 10 4 ∧ decodeWord 0x8A4E = .shl 10 4 := by decide

theorem test_decode_display :
    decodeWord 0x00E0 = .cls ∧ decodeWord 0xD7E5 = .drw 7 14 5 ∧ decodeWord 0xDEF0 = .drw 14 15 0 := by decide

theorem test_decode_keypad :
    decodeWord 0xEC9E = .skp 12 ∧ decodeWord 0xEDA1 = .sknp 13 ∧ decodeWord 0xF30A = .ldVxK 3 := by decide

theorem test_decode_timers :
    decodeWord 0xF107 = .ldVxDt 1 ∧ decodeWord 0xF215 = .ldDtVx 2 ∧ decodeWord 0xF318 = .ldStVx 3 := by decide

theorem test_decode_index :
    decodeWord 0xF41E = .addIVx 4 ∧ decodeWord 0xF529 = .ldFVx 5 ∧ decodeWord 0xF633 = .ldBVx 6 ∧
    decodeWord 0xF755 = .ldMemVx 7 ∧ decodeWord 0xF865 = .ldVxMem 8 := by decide

/-- V-CTL-15: neighbours of known words are UNKNOWN or SYS, and so are the words of later CHIP-8 dialects (R65). -/
theorem test_decode_neighbours :
    decodeWord 0x5121 = .unknown 0x5121 ∧ decodeWord 0x9125 = .unknown 0x9125 ∧ decodeWord 0x8129 = .unknown 0x8129 ∧
    decodeWord 0xE19F = .unknown 0xE19F ∧ decodeWord 0xF100 = .unknown 0xF100 ∧ decodeWord 0xF175 = .unknown 0xF175 ∧
    decodeWord 0x00E1 = .sys 0x0E1 ∧ decodeWord 0x00FF = .sys 0x0FF := by decide

/-- R60: an instruction is two bytes, high byte first; fewer hold none. -/
theorem test_decode_bytes :
    decode [0x6A, 0x42, 0x99] = .ok (.ldImm 10 0x42, [0x99]) ∧ decode [0x6A] = .error .truncated ∧
    decode [] = .error .truncated ∧ decodeTableWord 16 0x6A42 = some (.ldImm 10 0x42) := by decide

/-- The encoder gives the words of R64. -/
theorem test_encode :
    encode (.drw 7 14 5) = 0xD7E5 ∧ encode (.call 0xDEF) = 0x2DEF ∧ encode (.shl 10 4) = 0x8A4E ∧
    encode (.ldVxMem 8) = 0xF865 ∧ encodeBytes (.jp 0xABC) = [0x1A, 0xBC] := by decide

/-! ### The state the vectors start from -/

/-- The conventions at the head of 95_test_vectors.md: modern, `pre_copy`, FONT_BASE = 0x050. -/
def vectorParams : Params where
  qShift := .modern
  qJump := .modern
  qMemInc := .modern
  shiftFlagSource := .preCopy
  extraPerTick := 0
  strictUnknown := false
  resetPc := 0x200
  fontBase := 0x50
  fontData := fontDefault

/-- The legacy setting of all three quirks. -/
def legacyParams : Params := vectorParams.withOptions (some .legacy) .modern .modern .modern

/-- A machine just constructed, all keys up. -/
def fresh0 : State := State.construct vectorParams 0 0

/-- On entry to `Execute` of an instruction at 0x200. -/
def base : State := fresh0.setPc 0x202

/-- `base` with the legacy quirks. -/
def legacy (s : State) : State := { s with cfg := legacyParams }

/-- Look at something of a next state. -/
def seen {α : Type} (f : State → α) : Result → Option α
  | .next t => some (f t)
  | .fault _ => none
  | .refused _ => none

/-- The fault a result ends in. -/
def faultOf : Result → Option Fault
  | .next _ => none
  | .fault f => some f
  | .refused _ => none

/-- The columns that are set in a row of the display. -/
def columns (row : Nat) (s : State) : List Nat := (List.range 64).filter (fun c => s.disp.pixel row c)

/-- `V1`, `V2` and `VF`. -/
def v12f (s : State) : Byte × Byte × Byte := (s.reg 1, s.reg 2, s.reg 15)

/-- A state with `V1`, `V2` and `VF` set. -/
def with12f (a b f : Byte) : State := ((base.setReg 1 a).setReg 2 b).setReg 15 f

/-! ### Control transfer -/

/-- V-CTL-1, V-CTL-2: a jump to an even and to an odd address. -/
theorem test_jp : seen (·.pc) (exec (.jp 0x204) base) = some 0x204 ∧ seen (·.pc) (exec (.jp 0x205) base) = some 0x205 := by
  decide

/-- V-CTL-3. -/
theorem test_call : seen (fun t => (t.stk[0], t.sp, t.pc)) (exec (.call 0x210) (base.setPc 0x206)) = some (0x206, 1, 0x210) := by
  decide

/-- V-CTL-7 and V-CTL-6: the sixteenth nested call is legal, the seventeenth is not. -/
theorem test_call_full :
    seen (fun t => (t.stk[15], t.sp, t.pc)) (exec (.call 0x300) { base with sp := 15 }) = some (0x202, 16, 0x300) ∧
    faultOf (exec (.call 0x300) { base with sp := 16 }) = some (.stackOverflow 0x200) := by decide

/-- V-CTL-4: the slot keeps its value. -/
theorem test_ret :
    seen (fun t => (t.pc, t.sp, t.stk[0])) (exec .ret { base with sp := 1, stk := base.stk.set 0 0x206 }) =
      some (0x206, 0, 0x206) := by decide

/-- V-CTL-5. -/
theorem test_ret_empty : faultOf (exec .ret base) = some (.stackUnderflow 0x200) := by decide

/-- V-CTL-8, V-CTL-9. -/
theorem test_jpOffset :
    seen (·.pc) (exec (.jpOffset 0x220) (legacy ((base.setReg 0 0x04).setReg 2 0x10))) = some 0x224 ∧
    seen (·.pc) (exec (.jpOffset 0x220) ((base.setReg 0 0x04).setReg 2 0x10)) = some 0x230 := by decide

/-- V-CTL-10, V-CTL-11: the sum is not masked. -/
theorem test_jpOffset_top :
    seen (·.pc) (exec (.jpOffset 0xFFF) (legacy (base.setReg 0 0xFF))) = some 0x10FE ∧
    seen (·.pc) (exec (.jpOffset 0xFFF) (base.setReg 15 0xFF)) = some 0x10FE := by decide

/-- V-CTL-12, V-CTL-13. -/
theorem test_sys : exec (.sys 0x000) base = .next base ∧ exec (.sys 0x123) base = .next base := by
  exact ⟨rfl, rfl⟩

/-- V-CTL-14, without and with STRICT_UNKNOWN. -/
theorem test_unknown :
    exec (.unknown 0x8129) base = .next base ∧
    seen (fun t => (t.unknownOpcode, t.unknownIr, t.unknownPc, t.pc))
      (exec (.unknown 0x8129) { base with cfg := { vectorParams with strictUnknown := true } }) =
        some (true, 0x8129, 0x200, 0x202) := by
  exact ⟨rfl, by decide⟩

/-! ### Skips -/

/-- V-SKP-1, V-SKP-2, V-SKP-11. -/
theorem test_seImm :
    seen (·.pc) (exec (.seImm 1 0x00) base) = some 0x204 ∧
    seen (·.pc) (exec (.seImm 1 0x00) (base.setReg 1 0x01)) = some 0x202 ∧
    seen (·.pc) (exec (.seImm 15 0x01) (base.setReg 15 0x01)) = some 0x204 := by decide

/-- V-SKP-3, V-SKP-4. -/
theorem test_sneImm :
    seen (·.pc) (exec (.sneImm 3 0x80) (base.setReg 3 0x7F)) = some 0x204 ∧
    seen (·.pc) (exec (.sneImm 3 0x80) (base.setReg 3 0x80)) = some 0x202 := by decide

/-- V-SKP-5, V-SKP-6, V-SKP-7. -/
theorem test_seReg :
    seen (·.pc) (exec (.seReg 2 3) ((base.setReg 2 0x10).setReg 3 0x10)) = some 0x204 ∧
    seen (·.pc) (exec (.seReg 2 3) ((base.setReg 2 0x10).setReg 3 0x11)) = some 0x202 ∧
    seen (·.pc) (exec (.seReg 2 2) (base.setReg 2 0x10)) = some 0x204 := by decide

/-- V-SKP-8, V-SKP-9, V-SKP-10. -/
theorem test_sneReg :
    seen (·.pc) (exec (.sneReg 2 3) ((base.setReg 2 0x10).setReg 3 0x11)) = some 0x204 ∧
    seen (·.pc) (exec (.sneReg 2 3) ((base.setReg 2 0x10).setReg 3 0x10)) = some 0x202 ∧
    seen (·.pc) (exec (.sneReg 2 2) (base.setReg 2 0x10)) = some 0x202 := by decide

/-! ### Immediates -/

/-- V-IMM-1, V-IMM-2. -/
theorem test_ldImm :
    seen (·.reg 0) (exec (.ldImm 0 0xEA) base) = some 0xEA ∧
    seen (·.reg 15) (exec (.ldImm 15 0x00) (base.setReg 15 0x01)) = some 0x00 := by decide

/-- V-IMM-4, V-IMM-5, V-IMM-6: wraps, and no flag. -/
theorem test_addImm :
    seen v12f (exec (.addImm 1 0xFF) base) = some (0xFF, 0, 0) ∧
    seen v12f (exec (.addImm 1 0x01) (with12f 0xFF 0 0)) = some (0x00, 0, 0) ∧
    seen v12f (exec (.addImm 15 0x01) (with12f 0 0 0xFF)) = some (0, 0, 0x00) := by decide

/-- V-IMM-8. -/
theorem test_ldI : seen (·.i) (exec (.ldI 0xFFF) base) = some 0x0FFF := by decide

/-- V-IMM-9, V-IMM-10, V-IMM-11, with the draw A7. -/
theorem test_rnd :
    seen (·.reg 0) (exec (.rnd 0 0x0F) (base.driveRand 0xA7)) = some 0x07 ∧
    seen (·.reg 0) (exec (.rnd 0 0x00) (base.driveRand 0xA7)) = some 0x00 ∧
    seen (·.reg 0) (exec (.rnd 0 0xFF) (base.driveRand 0xA7)) = some 0xA7 := by decide

/-! ### Register ALU -/

/-- V-ALU-1. -/
theorem test_ldReg : seen v12f (exec (.ldReg 1 2) (with12f 0x00 0x33 0x01)) = some (0x33, 0x33, 0x01) := by decide

/-- V-ALU-2, V-ALU-6, V-ALU-7. -/
theorem test_or :
    seen v12f (exec (.orReg 1 2) (with12f 0xF0 0x0F 0x01)) = some (0xFF, 0x0F, 0x00) ∧
    seen v12f (exec (.orReg 15 2) (with12f 0 0x0F 0xF0)) = some (0, 0x0F, 0x00) ∧
    seen v12f (exec (.orReg 1 15) (with12f 0x01 0 0x80)) = some (0x81, 0, 0x00) := by decide

/-- V-ALU-3. -/
theorem test_and : seen v12f (exec (.andReg 1 2) (with12f 0xF0 0x3C 0x01)) = some (0x30, 0x3C, 0x00) := by decide

/-- V-ALU-4, V-ALU-5. -/
theorem test_xor :
    seen v12f (exec (.xorReg 1 2) (with12f 0xFF 0x0F 0x01)) = some (0xF0, 0x0F, 0x00) ∧
    seen v12f (exec (.xorReg 1 1) (with12f 0xAA 0 0x01)) = some (0x00, 0, 0x00) := by decide

/-- V-ALU-8, V-ALU-9, V-ALU-10. -/
theorem test_addReg :
    seen v12f (exec (.addReg 1 2) (with12f 0xFF 0x01 0x00)) = some (0x00, 0x01, 0x01) ∧
    seen v12f (exec (.addReg 1 2) (with12f 0xFE 0x01 0x01)) = some (0xFF, 0x01, 0x00) ∧
    seen v12f (exec (.addReg 1 2) (with12f 0x80 0x80 0x00)) = some (0x00, 0x80, 0x01) := by decide

/-- V-ALU-12, V-ALU-13: the flag survives, and the old flag is an operand. -/
theorem test_addReg_flag :
    seen v12f (exec (.addReg 15 1) (with12f 0x10 0 0xF5)) = some (0x10, 0, 0x01) ∧
    seen v12f (exec (.addReg 1 15) (with12f 0x10 0 0xF5)) = some (0x05, 0, 0x01) := by decide

/-- V-ALU-14 to V-ALU-18: equal operands give flag 0. -/
theorem test_sub :
    seen v12f (exec (.sub 1 2) (with12f 0x05 0x05 0x01)) = some (0x00, 0x05, 0x00) ∧
    seen v12f (exec (.sub 1 2) (with12f 0x05 0x07 0x00)) = some (0xFE, 0x07, 0x00) ∧
    seen v12f (exec (.sub 1 2) (with12f 0x07 0x05 0x00)) = some (0x02, 0x05, 0x01) ∧
    seen v12f (exec (.sub 15 2) (with12f 0 0x03 0x09)) = some (0, 0x03, 0x01) := by decide

/-- V-ALU-19, V-ALU-20, V-ALU-21. -/
theorem test_subn :
    seen v12f (exec (.subn 1 2) (with12f 0x05 0x07 0x00)) = some (0x02, 0x07, 0x01) ∧
    seen v12f (exec (.subn 1 2) (with12f 0x07 0x05 0x00)) = some (0xFE, 0x05, 0x00) ∧
    seen v12f (exec (.subn 1 2) (with12f 0x05 0x05 0x01)) = some (0x00, 0x05, 0x00) := by decide

/-- A state with the given shift options. -/
def shifting (q : Quirk) (f : FlagSource) (s : State) : State :=
  { s with cfg := { vectorParams with qShift := q, shiftFlagSource := f } }

/-- The four columns of the shift table: modern and legacy, each with `pre_copy` and `post_copy`. -/
def fourWays {α : Type} (look : State → α) (i : Instr) (s : State) : List (Option α) :=
  [seen look (exec i (shifting .modern .preCopy s)), seen look (exec i (shifting .modern .postCopy s)),
   seen look (exec i (shifting .legacy .preCopy s)), seen look (exec i (shifting .legacy .postCopy s))]

/-- V-SH-1, V-SH-2: `V1`, `V2` and `VF`. -/
theorem test_shr :
    fourWays v12f (.shr 1 2) (with12f 0x05 0x08 0) =
      [some (2, 8, 1), some (2, 8, 1), some (4, 8, 1), some (4, 8, 0)] ∧
    fourWays v12f (.shr 1 2) (with12f 0x04 0x09 0) =
      [some (2, 9, 0), some (2, 9, 0), some (4, 9, 0), some (4, 9, 1)] := by decide

/-- V-SH-6, V-SH-8: the flag register as destination and as source. -/
theorem test_shr_flag :
    fourWays (·.reg 15) (.shr 15 2) (with12f 0 0x08 0x03) = [some 0, some 1, some 4, some 0] ∧
    fourWays v12f (.shr 1 15) (with12f 0x05 0 0x08) =
      [some (2, 0, 1), some (2, 0, 1), some (0, 0, 1), some (4, 0, 0)] := by decide

/-- V-SH-3, V-SH-4. -/
theorem test_shl :
    fourWays v12f (.shl 1 2) (with12f 0x81 0x40 0) =
      [some (0x02, 0x40, 1), some (0x02, 0x40, 1), some (0x80, 0x40, 1), some (0x80, 0x40, 0)] ∧
    fourWays v12f (.shl 1 2) (with12f 0x40 0x81 0) =
      [some (0x80, 0x81, 0), some (0x80, 0x81, 0), some (0x02, 0x81, 0), some (0x02, 0x81, 1)] := by decide

/-- V-SH-7, V-SH-9. -/
theorem test_shl_flag :
    fourWays (·.reg 15) (.shl 15 2) (with12f 0 0x08 0x81) = [some 2, some 1, some 0x10, some 0] ∧
    fourWays v12f (.shl 1 15) (with12f 0x85 0 0x08) =
      [some (0x0A, 0, 1), some (0x0A, 0, 1), some (2, 0, 1), some (0x10, 0, 0)] := by decide

/-! ### Display -/

/-- A state with a sprite's bytes at 0x300, `I` there and the origin in `V0`, `V1`. -/
def sprite (bytes : List Byte) (x0 y0 : Byte) : State :=
  (((base.writeBytes 0x300 bytes).setI 0x300).setReg 0 x0).setReg 1 y0

/-- V-DSP-1. -/
theorem test_cls :
    seen (fun t => (columns 0 t, t.reg 15)) (exec .cls ((base.setDisp (Vector.replicate 32 1)).setReg 15 1)) =
      some ([], 1) := by decide

/-- V-DSP-4, V-DSP-5, V-DSP-6: bit 7 is the leftmost column, and the origin wraps. -/
theorem test_drw :
    seen (fun t => (columns 0 t, t.reg 15)) (exec (.drw 0 1 1) (sprite [0x80] 0 0)) = some ([0], 0) ∧
    seen (columns 0) (exec (.drw 0 1 1) (sprite [0x01] 0 0)) = some [7] ∧
    seen (columns 1) (exec (.drw 0 1 1) (sprite [0xFF] 0x44 0x21)) = some [4, 5, 6, 7, 8, 9, 10, 11] := by decide

/-- V-DSP-8, V-DSP-12: both edges clip, and a collision turns a pixel off. -/
theorem test_drw_edges :
    seen (fun t => (columns 31 t, columns 0 t)) (exec (.drw 0 1 2) (sprite [0xFF, 0xFF] 0x3C 0x1F)) =
      some ([60, 61, 62, 63], []) ∧
    seen (fun t => (columns 0 t, t.reg 15))
      (exec (.drw 0 1 1) ((sprite [0xC0] 0 0).setDisp ((Vector.replicate 32 0).set 0 0x8000000000000000))) =
        some ([1], 1) := by decide

/-! ### Keypad -/

/-- V-KEY-1, V-KEY-2, V-KEY-5. -/
theorem test_skp :
    seen (·.pc) (exec (.skp 2) { base.setReg 2 0x07 with k := 0x0080 }) = some 0x204 ∧
    seen (·.pc) (exec (.skp 2) (base.setReg 2 0x07)) = some 0x202 ∧
    faultOf (exec (.skp 2) (base.setReg 2 0x10)) = some (.keyIndexOutOfRange 0x200 0x10) := by decide

/-- V-KEY-3, V-KEY-4, V-KEY-5. -/
theorem test_sknp :
    seen (·.pc) (exec (.sknp 2) (base.setReg 2 0x07)) = some 0x204 ∧
    seen (·.pc) (exec (.sknp 2) { base.setReg 2 0x07 with k := 0x0080 }) = some 0x202 ∧
    faultOf (exec (.sknp 2) (base.setReg 2 0x10)) = some (.keyIndexOutOfRange 0x200 0x10) := by decide

/-- V-KEY-6. -/
theorem test_ldVxK_wait :
    seen (fun t => (t.pc, t.reg 1)) (exec (.ldVxK 1) (base.setReg 1 0x55)) = some (0x200, 0x55) := by decide

/-- V-KEY-7, V-KEY-8, V-KEY-9. -/
theorem test_ldVxK :
    seen (fun t => (t.pc, t.reg 1)) (exec (.ldVxK 1) { base with k := 0x0280 }) = some (0x202, 0x07) ∧
    seen (·.reg 15) (exec (.ldVxK 15) { base with k := 0x8000 }) = some 0x0F ∧
    seen (·.reg 1) (exec (.ldVxK 1) { base.setReg 1 0x55 with k := 0x0001 }) = some 0x00 := by decide

/-! ### Timers and frame ticks -/

/-- V-TMR-1, V-TMR-2, V-TMR-3. -/
theorem test_timers :
    seen (·.reg 2) (exec (.ldVxDt 2) (base.setDt 0x3C)) = some 0x3C ∧
    seen (·.dt) (exec (.ldDtVx 0) (base.setReg 0 0x03)) = some 0x03 ∧
    seen (·.st) (exec (.ldStVx 3) (base.setReg 3 0x02)) = some 0x02 := by decide

/-- The timers, the pulse and `PC` after one step. -/
def afterTick (s : State) : Option (Byte × Byte × Bool × Word) := seen (fun t => (t.dt, t.st, t.sndExpire, t.pc)) (step s)

/-- V-TMR-4, V-TMR-5: the countdown and its floor. -/
theorem test_tick_countdown :
    afterTick (fresh0.setDt 3) = some (2, 0, false, 0x202) ∧ afterTick fresh0 = some (0, 0, false, 0x202) := by decide

/-- V-TMR-6, V-TMR-7, V-TMR-8: one pulse, in the tick that takes `ST` from 1 to 0. -/
theorem test_tick_pulse :
    afterTick (fresh0.setSt 2) = some (0, 1, false, 0x202) ∧ afterTick (fresh0.setSt 1) = some (0, 0, true, 0x202) ∧
    afterTick { fresh0 with sndExpire := true } = some (0, 0, false, 0x202) := by decide

/-- V-TMR-9: set to 0 by FX18 after the decrement; V-TMR-11: a paused tick changes nothing. -/
theorem test_tick_set_and_pause :
    afterTick ((placeWord fresh0 0xF018).setSt 5) = some (0, 0, false, 0x202) ∧
    step ((fresh0.setDt 5).drivePause true) = .next ((fresh0.setDt 5).drivePause true) := by
  exact ⟨by decide, rfl⟩

/-- S5: one of the two waiting ticks; `PC` lands on the instruction again. -/
theorem test_tick_key_wait :
    seen (fun t => (t.pc, t.reg 1)) (step (placeWord (fresh0.setPc 0x204) 0xF10A)) = some (0x204, 0) ∧
    seen (fun t => (t.pc, t.reg 1)) (step ((placeWord (fresh0.setPc 0x204) 0xF10A).driveKeys 0x0080)) =
      some (0x206, 7) := by decide

/-- V-CTL-16, V-CTL-17, V-SKP-12: the last word of memory is fetched, and no word is above it. -/
theorem test_tick_top :
    faultOf (step (fresh0.setPc 0xFFF)) = some (.memOutOfRange 0xFFF 0x1000) ∧
    seen (·.pc) (step (placeWord (fresh0.setPc 0xFFE) 0x1200)) = some 0x200 ∧
    seen (·.pc) (step (placeWord (fresh0.setPc 0xFFC) 0x3100)) = some 0x1000 := by decide

/-! ### Index and memory -/

/-- `I` and `VF`. -/
def iAndFlag (s : State) : Word × Byte := (s.i, s.reg 15)

/-- V-IDX-2, V-IDX-3, V-IDX-4, V-IDX-7. -/
theorem test_addIVx :
    seen iAndFlag (exec (.addIVx 2) ((base.setI 0xFFF).setReg 2 0x01)) = some (0x000, 1) ∧
    seen iAndFlag (exec (.addIVx 2) ((base.setI 0xFFF).setReg 15 0x01)) = some (0xFFF, 0) ∧
    seen iAndFlag (exec (.addIVx 2) ((base.setI 0xF00).setReg 2 0xFF)) = some (0xFFF, 0) ∧
    seen iAndFlag (exec (.addIVx 15) ((base.setI 0xFFF).setReg 15 0xFF)) = some (0x0FE, 1) := by decide

/-- V-IDX-8, V-IDX-9, V-IDX-10. -/
theorem test_ldFVx :
    seen (·.i) (exec (.ldFVx 0) (base.setReg 0 0x0A)) = some 0x082 ∧ seen (·.i) (exec (.ldFVx 0) base) = some 0x050 ∧
    seen (·.i) (exec (.ldFVx 0) (base.setReg 0 0x0F)) = some 0x09B ∧
    faultOf (exec (.ldFVx 0) (base.setReg 0 0x10)) = some (.glyphIndexOutOfRange 0x200 0x10) := by decide

/-- The three bytes at an address. -/
def three (a : Nat) (s : State) : Byte × Byte × Byte := (s.byteAt a, s.byteAt (a + 1), s.byteAt (a + 2))

/-- V-IDX-11, V-IDX-12. -/
theorem test_ldBVx :
    seen (three 0x300) (exec (.ldBVx 0) ((base.setI 0x300).setReg 0 0xEA)) = some (2, 3, 4) ∧
    seen (three 0x300) (exec (.ldBVx 0) ((base.setI 0x300).setReg 0 0x09)) = some (0, 0, 9) ∧
    seen (three 0x300) (exec (.ldBVx 0) ((base.setI 0x300).setReg 0 0xFF)) = some (2, 5, 5) := by decide

/-- V-IDX-13, V-IDX-14. -/
theorem test_ldBVx_top :
    faultOf (exec (.ldBVx 0) (base.setI 0xFFE)) = some (.memOutOfRange 0x200 0x1000) ∧
    seen (three 0xFFD) (exec (.ldBVx 0) ((base.setI 0xFFD).setReg 0 0x7B)) = some (1, 2, 3) := by decide

/-- A state with four registers set and `I` at 0x300. -/
def fourRegs : State := ((((base.setI 0x300).setReg 0 0x11).setReg 1 0x22).setReg 2 0x33).setReg 3 0x44

/-- V-IDX-15, V-IDX-16. -/
theorem test_ldMemVx :
    seen (fun t => (three 0x301 t, t.i)) (exec (.ldMemVx 3) fourRegs) = some ((0x22, 0x33, 0x44), 0x300) ∧
    seen (fun t => (three 0x302 t, t.i)) (exec (.ldMemVx 3) (legacy fourRegs)) = some ((0x33, 0x44, 0), 0x304) := by decide

/-- V-IDX-20, V-IDX-21: the last byte of memory, and the byte above it. -/
theorem test_ldMemVx_top :
    seen (fun t => (t.byteAt 0xFFF, t.i)) (exec (.ldMemVx 15) (legacy ((base.setI 0xFF0).setReg 15 0x5A))) =
      some (0x5A, 0) ∧
    faultOf (exec (.ldMemVx 15) (base.setI 0xFF1)) = some (.memOutOfRange 0x200 0x1000) := by decide

/-- V-IDX-18, V-IDX-19. -/
theorem test_ldVxMem :
    seen (fun t => (t.reg 0, t.reg 1, t.reg 2, t.reg 3, t.i))
      (exec (.ldVxMem 2) (((base.writeBytes 0x300 [2, 3, 4]).setI 0x300).setReg 3 0x77)) =
        some (2, 3, 4, 0x77, 0x300) ∧
    seen (fun t => (t.reg 0, t.reg 1, t.reg 2, t.i))
      (exec (.ldVxMem 2) (legacy ((base.writeBytes 0x300 [2, 3, 4]).setI 0x300))) = some (2, 3, 4, 0x303) := by decide

/-! ### Reset and load -/

/-- V-RST-1: the first and the last byte of the font, and the bytes beside it; V-DSP-15: the glyph of A. -/
theorem test_reset_font :
    (fresh0.byteAt 0x82, fresh0.byteAt 0x83, fresh0.byteAt 0x84, fresh0.byteAt 0x85, fresh0.byteAt 0x86) =
      (0xF0, 0x90, 0xF0, 0x90, 0x90) ∧
    (fresh0.byteAt 0x50, fresh0.byteAt 0x9F, fresh0.byteAt 0x4F, fresh0.byteAt 0xA0, fresh0.byteAt 0x200) =
      (0xF0, 0x80, 0, 0, 0) := by decide

/-- V-RST-2: with no ROM the first tick after `State.reset` executes SYS 0. -/
theorem test_reset_step : seen (·.pc) (step State.reset) = some 0x202 := by decide

/-- A word placed after reset is the one the first step runs. -/
theorem test_reset_withFetchWord :
    seen (fun t => (t.reg 10, t.pc)) (step (State.reset.withFetchWord 16 0x6A42)) = some (0x42, 0x202) := by decide

/-- R196: rst raised and lowered between two ticks has reset the machine, and the load port is open again. -/
theorem test_reset_between_ticks :
    let s := ({ fourRegs with started := true, sp := 3 }.driveRst true).driveRst false
    (s.reg 0, s.i, s.pc, s.sp, s.started, s.rst) = (0, 0, 0x200, 0, false, false) ∧
    seen (·.byteAt 0x200) (ldWrite 0x200 0x60 s) = some 0x60 := by decide

/-- P1's first two bytes, loaded through the port, are the first instruction (R214); after a tick the port is closed. -/
theorem test_load :
    seen (fun t => (t.byteAt 0x200, t.byteAt 0x201, t.byteAt 0x202)) (loadRom [0x60, 0x05] fresh0) = some (0x60, 0x05, 0) ∧
    ldWrite 0x200 0x60 { fresh0 with started := true } = .refused .loadDuringRun := by
  exact ⟨by decide, rfl⟩

/-- R22: the combined option, when it is set, overrides the three. -/
theorem test_options :
    (legacyParams.qShift, legacyParams.qJump, legacyParams.qMemInc) = (.legacy, .legacy, .legacy) ∧
    (vectorParams.withOptions none .legacy .modern .legacy).qMemInc = .legacy := by decide

/-! ### Witnesses

For each statement of Certificates/Slice0/Obligations.lean that has hypotheses, a state and operands that meet them, and one at
the edge of each clause's range. -/

/-- `fresh0` with STRICT_UNKNOWN set. -/
def strict0 : State := { fresh0 with cfg := { vectorParams with strictUnknown := true } }

/-- The last two bytes of memory hold 6A42. -/
def topWord : State := placeWord (fresh0.setPc 0xFFE) 0x6A42

theorem fresh0_inv : fresh0.Inv where
  memory := by decide
  index := by decide
  counter := by decide
  stack := fun k hk => absurd hk (by simp [fresh0, State.construct])
  quiet := fun _ => rfl
  entry := by decide

theorem witness_SysHasNoEffect : (0x0E1 : Addr) ≠ 0x0E0 ∧ (0x0E1 : Addr) ≠ 0x0EE ∧ (0xFFF : Addr) ≠ 0x0E0 := by decide

theorem witness_RetPopsTheReturnAddress :
    ({ base with sp := 16 } : State).sp.val = (15 : Fin 16).val + 1 ∧
    ({ base with sp := 1 } : State).sp.val = (0 : Fin 16).val + 1 ∧ base.sp.val = 0 := by decide

/-- A state that meets the invariant and has a return address in use: the largest one. -/
theorem witness_RetPopsTheReturnAddress_inv :
    State.Inv { fresh0 with sp := 1, stk := fresh0.stk.set 0 0x1000 } where
  memory := by decide
  index := by decide
  counter := by decide
  stack := by decide
  quiet := fun _ => rfl
  entry := by decide

theorem witness_CallPushesTheReturnAddress :
    ({ base with sp := 15 } : State).sp.val = (15 : Fin 16).val ∧ base.sp.val = (0 : Fin 16).val ∧
    ({ base with sp := 16 } : State).sp.val = 16 := by decide

theorem witness_JumpWithOffsetAddsARegister :
    (15 : Reg).val = (0xFFF : Addr).toNat / 256 ∧ (0 : Reg).val = (0x0FF : Addr).toNat / 256 ∧
    (legacy base).cfg.qJump = .legacy ∧ base.cfg.qJump = .modern := by decide

theorem witness_UnknownWordIsANoOp :
    isUnknownWord 0x5001 = true ∧ isUnknownWord 0xFFFF = true ∧ base.cfg.strictUnknown = false ∧
    strict0.cfg.strictUnknown = true := by decide

theorem witness_UnknownReportLastsOneTick :
    (∀ s ∈ [placeWord strict0 0x8129, placeWord fresh0 0x8129, placeWord strict0 0x1200],
      s.rst = false ∧ s.pause = false ∧ s.cfg.extraPerTick = 0 ∧ (seen (·.pc) (step s)).isSome = true) ∧
    wordOfBytes ((placeWord strict0 0x8129).byteAt 0x200) ((placeWord strict0 0x8129).byteAt 0x201) = 0x8129 ∧
    isUnknownWord 0x8129 = true ∧ isUnknownWord 0x1200 = false := by decide

theorem witness_AddRegistersWithCarryOut : (14 : Reg) ≠ 15 ∧ (13 : Reg) ≠ 14 ∧ (13 : Reg) ≠ 15 := by decide

theorem witness_SubtractFlagIsStrictlyGreater : (14 : Reg) ≠ 15 ∧ (0 : Reg) ≠ 14 ∧ (0 : Reg) ≠ 15 := by decide

theorem witness_ShiftRight :
    (2 : Reg) = (if (shifting .legacy .preCopy base).cfg.qShift = .legacy then 2 else 1) ∧
    (15 : Reg) = (if (shifting .modern .postCopy base).cfg.qShift = .legacy then 2 else 15) ∧
    (shifting .legacy .preCopy base).cfg.shiftFlagSource = .preCopy ∧
    (shifting .modern .postCopy base).cfg.shiftFlagSource = .postCopy := by decide

theorem witness_ShiftLeft :
    (15 : Reg) = (if (shifting .legacy .postCopy base).cfg.qShift = .legacy then 15 else 1) ∧
    (1 : Reg) = (if (shifting .modern .preCopy base).cfg.qShift = .legacy then 15 else 1) ∧
    (shifting .legacy .postCopy base).cfg.shiftFlagSource = .postCopy ∧
    (shifting .modern .preCopy base).cfg.shiftFlagSource = .preCopy := by decide

theorem witness_QuirkFreeInstructionsIgnoreTheFlags :
    quirkFree (.shr 3 3) base = true ∧ quirkFree (.shl 15 15) base = true ∧ quirkFree (.jpOffset 0xFFF) base = true ∧
    quirkFree (.drw 0 1 15) base = true := by decide

/-- The last byte of memory as a sprite's only row, or as the first of two at the bottom edge. -/
theorem witness_DrawXorsTheSprite_inside :
    (∀ r, r < (1 : RowCount).val → ((base.setI 0xFFF).reg 1).toNat % 32 + r ≤ 31 → (base.setI 0xFFF).i.toNat + r ≤ 0xFFF) ∧
    (∀ r, r < (2 : RowCount).val → (((base.setI 0xFFF).setReg 1 0x1F).reg 1).toNat % 32 + r ≤ 31 →
      ((base.setI 0xFFF).setReg 1 0x1F).i.toNat + r ≤ 0xFFF) := by
  refine ⟨fun r hr _ => ?_, fun r hr h => ?_⟩
  · have : r = 0 := by simpa using hr
    subst this
    decide
  · have h31 : (((base.setI 0xFFF).setReg 1 0x1F).reg 1).toNat % 32 = 31 := by decide
    have : r = 0 := by omega
    subst this
    decide

/-- A set sprite bit on a set pixel in the last column, none with a clear sprite, and a drawn row above 0xFFF. -/
theorem witness_DrawXorsTheSprite_edges :
    ((sprite [0x80] 63 31).setDisp (Vector.replicate 32 1)).disp.pixel 31 63 = true ∧
    ((sprite [0x80] 63 31).byteAt (0x300 + 0)).getLsbD (7 - 0) = true ∧
    (sprite [0x00] 0 0).byteAt 0x300 = 0 ∧
    1 < (2 : RowCount).val ∧ ((base.setI 0xFFF).reg 1).toNat % 32 + 1 ≤ 31 ∧ 0xFFF < (base.setI 0xFFF).i.toNat + 1 := by
  decide

theorem witness_DrawingTwiceCancels :
    (14 : Reg) ≠ 15 ∧ (13 : Reg) ≠ 15 ∧ base.disp = Vector.replicate 32 0 ∧
    (∀ r, r < (1 : RowCount).val → ((base.setI 0xFFF).reg 13).toNat % 32 + r ≤ 31 →
      (base.setI 0xFFF).i.toNat + r ≤ 0xFFF) := by
  refine ⟨by decide, by decide, rfl, fun r hr _ => ?_⟩
  have : r = 0 := by simpa using hr
  subst this
  decide

theorem witness_SkipsOnAKey : ((base.setReg 2 15).reg 2).toNat ≤ 15 ∧ 15 < ((base.setReg 2 16).reg 2).toNat := by decide

theorem witness_KeyWaitStoresTheLowestKey :
    (∀ k, k < 16 → base.k.getLsbD k = false) ∧ (∃ k, k < 16 ∧ ({ base with k := 0x8000 } : State).k.getLsbD k = true) := by
  exact ⟨by decide, 15, by decide⟩

theorem witness_KeyWaitSpinsAndTimeRuns :
    let s := placeWord (fresh0.setPc 0xFFE) 0xF10A
    s.rst = false ∧ s.pause = false ∧ s.cfg.extraPerTick = 0 ∧ s.pc.toNat ≤ 0xFFE ∧
    decodeWord (wordOfBytes (s.byteAt s.pc.toNat) (s.byteAt (s.pc.toNat + 1))) = .ldVxK 1 ∧ s.keyIn = 0 := by decide

theorem witness_FontAddressOfADigit : ((base.setReg 0 15).reg 0).toNat ≤ 15 ∧ 15 < ((base.setReg 0 16).reg 0).toNat := by decide

theorem witness_DecimalDigitsAreStored :
    (base.setI 0xFFD).i.toNat + 2 ≤ 0xFFF ∧ 0xFFF < (base.setI 0xFFE).i.toNat + 2 ∧
    0xFFC < (base.setI 0xFFD).i.toNat ∧ (base.setI 0x300).i.toNat + 2 < 0x303 := by decide

theorem witness_RegistersAreStored :
    (base.setI 0xFF0).i.toNat + (15 : Reg).val ≤ 0xFFF ∧ 0xFFF < (base.setI 0xFF1).i.toNat + (15 : Reg).val ∧
    (legacy base).cfg.qMemInc = .legacy ∧ base.cfg.qMemInc = .modern := by decide

theorem witness_RegistersAreLoaded :
    (base.setI 0xFFF).i.toNat + (0 : Reg).val ≤ 0xFFF ∧ 0xFFF < (base.setI 0xFFF).i.toNat + (1 : Reg).val ∧
    (legacy base).cfg.qMemInc = .legacy ∧ base.cfg.qMemInc = .modern := by decide

theorem witness_StoredRegistersLoadBack : (base.setI 0xFF0).i.toNat + (15 : Reg).val ≤ 0xFFF := by decide

theorem witness_StoresAreSeenByTheNextFetch :
    (seen (·.pc) (exec (.ldMemVx 15) (base.setI 0xFF0))).isSome = true ∧ (15 : Reg).val = (14 : Reg).val + 1 ∧
    (15 : Reg) ≤ 15 ∧ (seen (·.pc) (exec (.ldBVx 0) (base.setI 0xFFD))).isSome = true := by decide

theorem witness_DecodeEncodeRoundTrip :
    (Instr.drw 15 15 15).wellFormed = true ∧ (Instr.sys 0xFFF).wellFormed = true ∧
    (Instr.unknown 0xFFFF).wellFormed = true := by decide

theorem witness_StepRunsTheDecodedInstruction :
    topWord.rst = false ∧ topWord.pause = false ∧ topWord.pc.toNat ≤ 0xFFE ∧ topWord.cfg.extraPerTick = 0 ∧
    (Instr.ldImm 10 0x42).wellFormed = true ∧
    decode [topWord.byteAt topWord.pc.toNat, topWord.byteAt (topWord.pc.toNat + 1)] = .ok (.ldImm 10 0x42, []) := by decide

theorem witness_CycleAdvancesThenExecutes :
    topWord.pc.toNat ≤ 0xFFE ∧ (seen (·.pc) (exec (.jp 0xFFF) base)).isSome = true := by decide

theorem witness_FetchAboveMemoryFaults :
    0xFFE < (fresh0.setPc 0xFFF).pc.toNat ∧ 0xFFE < (fresh0.setPc 0xFFFF).pc.toNat ∧
    (fresh0.setPc 0xFFF).rst = false ∧ (fresh0.setPc 0xFFF).pause = false := by decide

theorem witness_FrameTickOrder :
    fresh0.rst = false ∧ fresh0.pause = false ∧ (fresh0.drivePause true).rst = false ∧
    (fresh0.drivePause true).pause = true := by decide

theorem witness_TimersCountDownOncePerTick :
    let s := (fresh0.setDt 0xFF).setSt 1
    s.rst = false ∧ s.pause = false ∧ s.cfg.extraPerTick = 0 ∧
    decodeWord (wordOfBytes (s.byteAt s.pc.toNat) (s.byteAt (s.pc.toNat + 1))) = .sys 0 ∧
    (seen (·.pc) (step s)).isSome = true := by decide

theorem witness_SoundPulseOnExpiry :
    (fresh0.setSt 1).rst = false ∧ (fresh0.setSt 1).pause = false ∧ (seen (·.pc) (step (fresh0.setSt 1))).isSome = true ∧
    (seen (·.pc) (step (fresh0.setSt 2))).isSome = true := by decide

theorem witness_SetThenReadTheDelayTimer :
    let s := (fresh0.writeBytes 0xFFC [0xF0, 0x15, 0xF1, 0x07]).setPc 0xFFC
    let u := placeWord (fresh0.setPc 0xFFC) 0xF018
    s.rst = false ∧ s.pause = false ∧ s.cfg.extraPerTick = 0 ∧ s.pc.toNat ≤ 0xFFC ∧
    decodeWord (wordOfBytes (s.byteAt s.pc.toNat) (s.byteAt (s.pc.toNat + 1))) = .ldDtVx 0 ∧
    decodeWord (wordOfBytes (s.byteAt (s.pc.toNat + 2)) (s.byteAt (s.pc.toNat + 3))) = .ldVxDt 1 ∧
    decodeWord (wordOfBytes (u.byteAt u.pc.toNat) (u.byteAt (u.pc.toNat + 1))) = .ldStVx 0 := by decide

theorem witness_ResetPortGivesTheResetTable :
    (fresh0.driveRst true).rst = true ∧ 0x4F < (fresh0.driveRst true).cfg.fontBase.val ∧
    (fresh0.driveRst true).cfg.fontBase.val + 80 ≤ 0xA0 := by decide

/-- Whatever the OPEN font base, 0x200 lies above the font. -/
theorem witness_StateResetIsTheResetTable : State.reset.cfg.fontBase.val + 80 ≤ 0x200 := by
  have := State.reset.cfg.fontBase.isLt
  omega

theorem witness_LoadPortWritesOneByte :
    fresh0.started = false ∧ ({ fresh0 with started := true } : State).started = true ∧
    (0xFFE : Nat) ≠ (0xFFF : Addr).toNat := by decide

theorem witness_LoadedRomRunsFirst :
    (List.replicate 3584 (0x12 : Byte)).length ≤ 3584 ∧ fresh0.started = false ∧ fresh0.pc = 0x200 ∧ fresh0.rst = false ∧
    fresh0.pause = false := by
  exact ⟨le_of_eq List.length_replicate, rfl, rfl, rfl, rfl⟩

theorem witness_NothingElseWritesAPart :
    (seen (·.pc) (exec (.jp 0xFFF) base)).isSome = true ∧
    (∀ p ∈ [Part.index, .stackCount, .stackSlots, .delay, .sound, .display, .memory, .random, .report],
      p ∉ partsWritten (.jp 0xFFF)) := by decide

theorem witness_NothingElseWritesARegister :
    (seen (·.pc) (exec (.ldVxMem 14) (base.setI 0x300))).isSome = true ∧ writesReg (.ldVxMem 14) 15 = false := by decide

theorem witness_ExecCompletesWithinTheLimits :
    withinLimits (.ldMemVx 15) (base.setI 0xFF0) = true ∧ withinLimits (.ldMemVx 15) (base.setI 0xFF1) = false ∧
    withinLimits (.call 0) { base with sp := 15 } = true ∧ withinLimits (.call 0) { base with sp := 16 } = false ∧
    withinLimits .ret { base with sp := 1 } = true ∧ withinLimits .ret base = false ∧
    withinLimits (.skp 0) (base.setReg 0 15) = true ∧ withinLimits (.skp 0) (base.setReg 0 16) = false := by decide

theorem witness_SoundTimerIsUnreadable : ∀ x : Reg, Instr.ldDtVx 0 ≠ .ldStVx x := by decide

theorem witness_ParametersAreFixed :
    (seen (·.pc) (step fresh0)).isSome = true ∧ (seen (·.pc) (step (fresh0.driveRst true))).isSome = true := by decide

theorem witness_EveryStepKeepsTheInvariant : fresh0.Inv ∧ (seen (·.pc) (step fresh0)).isSome = true := by
  exact ⟨fresh0_inv, by decide⟩

end Sys2Proof.Tests
end

section
/-! PROOFS of 10_state.md: what an instruction leaves unchanged.  The relation `Keeps` has one rule an operation, and
`exec_keeps` puts them together, once for every instruction. -/

namespace Sys2Proof.Machine

/-! ### What an operation keeps -/

/-- `t` agrees with `s` outside the parts `ps`, the registers `rs` and `PC`. -/
structure Keeps (ps : List Part) (rs : Reg → Bool) (s t : State) : Prop where
  regs : ∀ r, rs r = false → t.reg r = s.reg r
  index : Part.index ∉ ps → t.i = s.i
  stackCount : Part.stackCount ∉ ps → t.sp = s.sp
  stackSlots : Part.stackSlots ∉ ps → t.stk = s.stk
  delay : Part.delay ∉ ps → t.dt = s.dt
  sound : Part.sound ∉ ps → t.st = s.st
  display : Part.display ∉ ps → t.disp = s.disp
  memory : Part.memory ∉ ps → t.mem = s.mem
  random : Part.random ∉ ps → t.randIn = s.randIn ∧ t.fresh = s.fresh
  report : Part.report ∉ ps → t.unknown = s.unknown
  keys : t.k = s.k
  params : t.cfg = s.cfg
  pulse : t.sndExpire = s.sndExpire
  pauseLevel : t.pause = s.pause
  resetLevel : t.rst = s.rst
  keyLevels : t.keyIn = s.keyIn
  marker : t.started = s.started

namespace Keeps

variable {ps : List Part} {rs : Reg → Bool} {s t u : State}

theorem refl : Keeps ps rs s s := by
  constructor <;> simp

theorem trans (h : Keeps ps rs s t) (h' : Keeps ps rs t u) : Keeps ps rs s u where
  regs r hr := (h'.regs r hr).trans (h.regs r hr)
  index hp := (h'.index hp).trans (h.index hp)
  stackCount hp := (h'.stackCount hp).trans (h.stackCount hp)
  stackSlots hp := (h'.stackSlots hp).trans (h.stackSlots hp)
  delay hp := (h'.delay hp).trans (h.delay hp)
  sound hp := (h'.sound hp).trans (h.sound hp)
  display hp := (h'.display hp).trans (h.display hp)
  memory hp := (h'.memory hp).trans (h.memory hp)
  random hp := ⟨(h'.random hp).1.trans (h.random hp).1, (h'.random hp).2.trans (h.random hp).2⟩
  report hp := (h'.report hp).trans (h.report hp)
  keys := h'.keys.trans h.keys
  params := h'.params.trans h.params
  pulse := h'.pulse.trans h.pulse
  pauseLevel := h'.pauseLevel.trans h.pauseLevel
  resetLevel := h'.resetLevel.trans h.resetLevel
  keyLevels := h'.keyLevels.trans h.keyLevels
  marker := h'.marker.trans h.marker

/-! An operation keeps all but its own part, so its rule asks that this part is one that may change. -/

theorem setV (v : Vector Byte 16) (h : ∀ r : Reg, rs r = false → v[r.val] = s.reg r) : Keeps ps rs s { s with v := v } :=
  { (refl : Keeps ps rs s s) with regs := h }

theorem setReg {x : Reg} (b : Byte) (hx : rs x = true := by simp [writesReg]) : Keeps ps rs s (s.setReg x b) := by
  refine setV _ fun r hr => (reg_setReg s x r b).trans (if_neg ?_)
  rintro rfl
  simp [hx] at hr

theorem setFlag (b : Byte) (hf : rs 15 = true := by simp [writesReg]) : Keeps ps rs s (s.setFlag b) := setReg b hf

theorem loadRegs (x : Reg) (hx : ∀ r ≤ x, rs r = true := by simp [writesReg]) : Keeps ps rs s (s.loadRegs x) := by
  refine setV _ fun r hr => (reg_loadRegs s x r).trans (if_neg fun hle => ?_)
  simp [hx r hle] at hr

theorem setPc (w : Word) : Keeps ps rs s (s.setPc w) :=
  { (refl : Keeps ps rs s s) with }

theorem setI (w : Word) (hp : Part.index ∈ ps := by simp [partsWritten]) : Keeps ps rs s (s.setI w) :=
  { (refl : Keeps ps rs s s) with index := absurd hp }

theorem setDt (b : Byte) (hp : Part.delay ∈ ps := by simp [partsWritten]) : Keeps ps rs s (s.setDt b) :=
  { (refl : Keeps ps rs s s) with delay := absurd hp }

theorem setSt (b : Byte) (hp : Part.sound ∈ ps := by simp [partsWritten]) : Keeps ps rs s (s.setSt b) :=
  { (refl : Keeps ps rs s s) with sound := absurd hp }

theorem setDisp (d : Display) (hp : Part.display ∈ ps := by simp [partsWritten]) : Keeps ps rs s (s.setDisp d) :=
  { (refl : Keeps ps rs s s) with display := absurd hp }

theorem drawn (hp : Part.random ∈ ps := by simp [partsWritten]) : Keeps ps rs s s.drawn :=
  { (refl : Keeps ps rs s s) with random := absurd hp }

theorem reportWord (w a : Word) (hp : Part.report ∈ ps := by simp [partsWritten]) : Keeps ps rs s (s.report w a) :=
  { (refl : Keeps ps rs s s) with report := absurd hp }

theorem writeBytes (a : Nat) (bs : List Byte) (hp : Part.memory ∈ ps := by simp [partsWritten]) :
    Keeps ps rs s (s.writeBytes a bs) := by
  rw [State.writeBytes_eq]
  exact { (refl : Keeps ps rs s s) with memory := absurd hp }

theorem afterTransfer (x : Reg) (hp : Part.index ∈ ps := by simp [partsWritten]) :
    Keeps ps rs s (s.afterTransfer x) := by
  rw [State.afterTransfer_eq]
  exact setI _ hp

theorem setSp (n : Fin 17) (hp : Part.stackCount ∈ ps := by simp [partsWritten]) : Keeps ps rs s { s with sp := n } :=
  { (refl : Keeps ps rs s s) with stackCount := absurd hp }

theorem setStack (n : Fin 17) (slots : Vector Word 16) (hc : Part.stackCount ∈ ps := by simp [partsWritten])
    (hs : Part.stackSlots ∈ ps := by simp [partsWritten]) : Keeps ps rs s { s with stk := slots, sp := n } :=
  { (refl : Keeps ps rs s s) with stackCount := absurd hc, stackSlots := absurd hs }

end Keeps

/-! ### The instructions that can stop, when they go on -/

section
variable {s t : State}

theorem execRet_eq_next : execRet s = .next t ↔
    ∃ h : 0 < s.sp.val,
      t = ({ s with sp := ⟨s.sp.val - 1, by omega⟩ } : State).setPc s.stk[s.sp.val - 1] := by
  unfold execRet
  by_cases h : 0 < s.sp.val
  · simp [pop_ok s h, orFault_ok, h, eq_comm (a := t)]
  · simp [pop_empty s h, orFault_error, h]

theorem execCall_eq_next {nnn : Addr} : execCall nnn s = .next t ↔
    ∃ h : s.sp.val < 16,
      t = ({ s with stk := s.stk.set s.sp.val s.pc, sp := ⟨s.sp.val + 1, by omega⟩ } : State).setPc (nnn.setWidth 16) := by
  unfold execCall
  by_cases h : s.sp.val < 16
  · simp [push_ok s s.pc h, orFault_ok, h, eq_comm (a := t)]
  · simp [push_full s s.pc h, orFault_error, h]

theorem execSkp_eq_next {x : Reg} : execSkp x s = .next t ↔
    (s.reg x).toNat ≤ 15 ∧ skipIf (s.keyDown (s.reg x).toNat) s = .next t := by
  simp [execSkp, orFault_eq_next, keyOperand_eq_ok, and_assoc]

theorem execSknp_eq_next {x : Reg} : execSknp x s = .next t ↔
    (s.reg x).toNat ≤ 15 ∧ skipIf (!s.keyDown (s.reg x).toNat) s = .next t := by
  simp [execSknp, orFault_eq_next, keyOperand_eq_ok, and_assoc]

theorem execLdFVx_eq_next {x : Reg} : execLdFVx x s = .next t ↔
    (s.reg x).toNat ≤ 15 ∧ t = s.setI (BitVec.ofNat 16 (s.cfg.fontBase.val + 5 * (s.reg x).toNat)) := by
  simp [execLdFVx, orFault_eq_next, glyphOperand_eq_ok, and_assoc, eq_comm (a := t)]

theorem execDrw_eq_next {x y : Reg} {n : RowCount} : execDrw x y n s = .next t ↔
    (s.spriteRows y n = 0 ∨ s.i.toNat + s.spriteRows y n ≤ memSize) ∧
      t = (s.setDisp (s.blit x y n)).setFlag (flagOf (s.collides x y n)) := by
  simp [execDrw, withAccess_eq_next, eq_comm (a := t)]

theorem execLdBVx_eq_next {x : Reg} : execLdBVx x s = .next t ↔
    s.i.toNat + 3 ≤ memSize ∧ t = s.writeBytes s.i.toNat (bcdDigits (s.reg x)) := by
  simp [execLdBVx, withAccess_eq_next, eq_comm (a := t)]

theorem execLdMemVx_eq_next {x : Reg} : execLdMemVx x s = .next t ↔
    s.i.toNat + (x.val + 1) ≤ memSize ∧
      t = (s.writeBytes s.i.toNat (s.v.toList.take (x.val + 1))).afterTransfer x := by
  simp [execLdMemVx, withAccess_eq_next, eq_comm (a := t)]

theorem execLdVxMem_eq_next {x : Reg} : execLdVxMem x s = .next t ↔
    s.i.toNat + (x.val + 1) ≤ memSize ∧ t = (s.loadRegs x).afterTransfer x := by
  simp [execLdVxMem, withAccess_eq_next, eq_comm (a := t)]

end

/-! ### What an instruction keeps -/

section
variable {ps : List Part} {rs : Reg → Bool} {s t : State}

theorem skipIf_keeps {c : Bool} (h : skipIf c s = .next t) : Keeps ps rs s t := by
  rw [skipIf_eq] at h
  cases h
  exact .setPc _

theorem aluOp_keeps {f g : Byte → Byte → Byte} {x y : Reg} (h : aluOp f g x y s = .next t)
    (hx : rs x = true := by simp [writesReg]) (hf : rs 15 = true := by simp [writesReg]) : Keeps ps rs s t := by
  cases h
  exact (Keeps.setReg _ hx).trans (.setFlag _ hf)

theorem shiftOp_keeps {f g : Byte → Byte} {x y : Reg} (h : shiftOp f g x y s = .next t)
    (hx : rs x = true := by simp [writesReg]) (hf : rs 15 = true := by simp [writesReg]) : Keeps ps rs s t := by
  unfold shiftOp at h
  split at h <;> cases h
  · exact ((Keeps.setFlag _ hf).trans (.setReg _ hx)).trans (.setReg _ hx)
  · exact (Keeps.setReg _ hx).trans (.setFlag _ hf)

theorem execLdVxK_keeps {x : Reg} (hx : rs x = true) (h : execLdVxK x s = .next t) : Keeps ps rs s t := by
  unfold execLdVxK at h
  split at h <;> cases h
  · exact .setPc _
  · exact .setReg _ hx

theorem execUnknown_keeps {w : Word} (hp : Part.report ∈ ps) (h : execUnknown w s = .next t) : Keeps ps rs s t := by
  unfold execUnknown at h
  split at h <;> cases h
  · exact .reportWord _ _ hp
  · exact .refl

end

/-- An instruction changes only the parts and the registers that Safety.lean lists for it, and `PC`. -/
theorem exec_keeps {i : Instr} {s t : State} (h : exec i s = .next t) : Keeps (partsWritten i) (writesReg i) s t := by
  cases i with
  | cls => cases h; exact .setDisp _
  | ret =>
    obtain ⟨_, rfl⟩ := execRet_eq_next.1 h
    exact (Keeps.setSp _).trans (.setPc _)
  | sys => cases h; exact .refl
  | jp => cases h; exact .setPc _
  | call =>
    obtain ⟨_, rfl⟩ := execCall_eq_next.1 h
    exact (Keeps.setStack _ _).trans (.setPc _)
  | seImm => exact skipIf_keeps h
  | sneImm => exact skipIf_keeps h
  | seReg => exact skipIf_keeps h
  | sneReg => exact skipIf_keeps h
  | ldImm => cases h; exact .setReg _
  | addImm => cases h; exact .setReg _
  | ldReg => cases h; exact .setReg _
  | orReg => rw [exec, execOr] at h; exact aluOp_keeps h
  | andReg => rw [exec, execAnd] at h; exact aluOp_keeps h
  | xorReg => rw [exec, execXor] at h; exact aluOp_keeps h
  | addReg => rw [exec, execAddReg] at h; exact aluOp_keeps h
  | sub => rw [exec, execSub] at h; exact aluOp_keeps h
  | subn => rw [exec, execSubn] at h; exact aluOp_keeps h
  | shr => rw [exec, execShr] at h; exact shiftOp_keeps h
  | shl => rw [exec, execShl] at h; exact shiftOp_keeps h
  | ldI => cases h; exact .setI _
  | jpOffset => cases h; exact .setPc _
  | rnd => cases h; exact (Keeps.setReg _).trans .drawn
  | drw =>
    obtain ⟨_, rfl⟩ := execDrw_eq_next.1 h
    exact (Keeps.setDisp _).trans (.setFlag _)
  | skp => exact skipIf_keeps (execSkp_eq_next.1 h).2
  | sknp => exact skipIf_keeps (execSknp_eq_next.1 h).2
  | ldVxDt => cases h; exact .setReg _
  | ldVxK => exact execLdVxK_keeps (by simp [writesReg]) h
  | ldDtVx => cases h; exact .setDt _
  | ldStVx => cases h; exact .setSt _
  | addIVx => cases h; exact (Keeps.setI _).trans (.setFlag _)
  | ldFVx =>
    obtain ⟨_, rfl⟩ := execLdFVx_eq_next.1 h
    exact .setI _
  | ldBVx =>
    obtain ⟨_, rfl⟩ := execLdBVx_eq_next.1 h
    exact .writeBytes _ _
  | ldMemVx =>
    obtain ⟨_, rfl⟩ := execLdMemVx_eq_next.1 h
    exact (Keeps.writeBytes _ _).trans (.afterTransfer _)
  | ldVxMem =>
    obtain ⟨_, rfl⟩ := execLdVxMem_eq_next.1 h
    exact (Keeps.loadRegs _).trans (.afterTransfer _)
  | unknown => exact execUnknown_keeps (by simp [partsWritten]) h

/-! ### The statements -/

/-- Settles O51, from `exec_keeps`. -/
theorem nothingElseWritesAPart : Obligations.NothingElseWritesAPart := by
  intro i s t h
  have k := exec_keeps h
  have hmem (hp : Part.memory ∉ partsWritten i) (a : Nat) : t.byteAt a = s.byteAt a := by
    unfold State.byteAt
    rw [k.memory hp, k.params]
  exact ⟨k.index, k.stackCount, k.stackSlots, k.delay, k.sound, k.display, hmem, k.random, k.report,
    k.keys, k.params, k.pulse, k.pauseLevel, k.resetLevel, k.keyLevels, k.marker⟩

/-- Settles O52, from `exec_keeps`. -/
theorem nothingElseWritesARegister : Obligations.NothingElseWritesARegister := by
  intro i s t r h hr
  exact (exec_keeps h).regs r hr

theorem cycle_keeps_params {s t : State} (h : cycle s = .next t) : t.cfg = s.cfg :=
  (exec_keeps ((cycle_eq_next s).1 h).2).params

/-- Settles O56: of the three ways a step goes on only the tick's instructions could change a parameter, and none does. -/
theorem parametersAreFixed : Obligations.ParametersAreFixed := by
  intro s t h
  obtain ⟨_, rfl⟩ | ⟨_, _, rfl⟩ | ⟨_, _, hrun⟩ := step_eq_next s h
  · exact s.assertReset_cfg
  · rfl
  · exact cycles_keeps (fun u => u.cfg = s.cfg) (fun _ _ huv hu => (cycle_keeps_params huv).trans hu) _ _ _ hrun
      s.prologue_cfg

end Sys2Proof.Machine
end

section
/-! PROOFS of 10_state.md R15: what an instruction step is and where each instruction leaves `PC`. -/

namespace Sys2Proof.Machine

variable {s t : State}

/-- BNNN's register, as the table of R15 names it. -/
theorem jumpReg_eq (nnn : Addr) :
    s.jumpReg nnn = if s.cfg.qJump = .legacy then 0 else Fin.ofNat 16 (nnn.toNat / 256) := by
  unfold State.jumpReg
  cases s.cfg.qJump
  · rfl
  · have := nnn.isLt
    apply Fin.ext
    simp [Nat.shiftRight_eq_div_pow]

theorem skipIf_pc {c : Bool} (h : skipIf c s = .next t) : t.pc = if c = true then s.pc + 2 else s.pc := by
  rw [skipIf_eq] at h
  cases h
  rfl

theorem shiftOp_pc {f g : Byte → Byte} {x y : Reg} (h : shiftOp f g x y s = .next t) : t.pc = s.pc := by
  unfold shiftOp at h
  split at h <;> cases h <;> rfl

theorem execLdVxK_pc {x : Reg} (h : execLdVxK x s = .next t) : t.pc = if s.k = 0 then s.pc - 2 else s.pc := by
  unfold execLdVxK at h
  cases hk : s.lowestKey with
  | none =>
    rw [if_pos ((lowestKey_eq_none_iff_zero s).1 hk)]
    rw [hk] at h
    cases h
    rfl
  | some j =>
    have h0 : s.k ≠ 0 := fun h0 => by simp [(lowestKey_eq_none_iff_zero s).2 h0] at hk
    rw [if_neg h0]
    rw [hk] at h
    cases h
    rfl

theorem execUnknown_pc {w : Word} (h : execUnknown w s = .next t) : t.pc = s.pc := by
  unfold execUnknown at h
  split at h <;> cases h <;> rfl

/-- The table of R15: an instruction that goes on leaves `PC` where `pcAfter` says. -/
theorem exec_pc {i : Instr} (h : exec i s = .next t) : t.pc = pcAfter i s := by
  cases i with
  | ret =>
    obtain ⟨hsp, rfl⟩ := execRet_eq_next.1 h
    have hin : s.sp.val - 1 < 16 := by omega
    simp [pcAfter, hin]
  | jp nnn => cases h; simp [pcAfter]
  | call nnn =>
    obtain ⟨_, rfl⟩ := execCall_eq_next.1 h
    simp [pcAfter]
  | seImm x nn => simp [skipIf_pc h, pcAfter]
  | sneImm x nn => simp [skipIf_pc h, pcAfter]
  | seReg x y => simp [skipIf_pc h, pcAfter]
  | sneReg x y => simp [skipIf_pc h, pcAfter]
  | jpOffset nnn =>
    cases h
    rw [pcAfter, ← jumpReg_eq]
    simp [BitVec.ofNat_add]
  | skp x => exact skipIf_pc (execSkp_eq_next.1 h).2
  | sknp x => simp [skipIf_pc (execSknp_eq_next.1 h).2, pcAfter, State.keyDown]
  | ldVxK x => exact execLdVxK_pc h
  | shr x y => rw [exec, execShr] at h; exact shiftOp_pc h
  | shl x y => rw [exec, execShl] at h; exact shiftOp_pc h
  | drw x y n => obtain ⟨_, rfl⟩ := execDrw_eq_next.1 h; simp [pcAfter]
  | ldFVx x => obtain ⟨_, rfl⟩ := execLdFVx_eq_next.1 h; simp [pcAfter]
  | ldBVx x => obtain ⟨_, rfl⟩ := execLdBVx_eq_next.1 h; simp [pcAfter]
  | ldMemVx x => obtain ⟨_, rfl⟩ := execLdMemVx_eq_next.1 h; simp [pcAfter]
  | ldVxMem x => obtain ⟨_, rfl⟩ := execLdVxMem_eq_next.1 h; simp [pcAfter]
  | unknown w => exact execUnknown_pc h
  | _ => cases h; rfl

/-- Settles O40: the instruction step by `cycle_inside`, the table by `exec_pc`. -/
theorem cycleAdvancesThenExecutes : Obligations.CycleAdvancesThenExecutes := by
  intro s
  refine ⟨fun hpc => ?_, fun i t h => exec_pc h⟩
  exact cycle_inside s (by unfold memSize; omega) rfl

/-- Settles O39: the prologue leaves `PC` and memory alone, so the tick's first instruction is the one decoded. -/
theorem stepRunsTheDecodedInstruction : Obligations.StepRunsTheDecodedInstruction := by
  intro s i hrst hpause hpc _ hdec
  have hword : decodeWord (wordOfBytes (s.byteAt s.pc.toNat) (s.byteAt (s.pc.toNat + 1))) = i := by
    simpa [decode] using hdec
  have hfirst : cycle s.prologue = exec i s.prologue.advance :=
    cycle_inside s.prologue (by simp [memSize]; omega) hword
  rw [step_tick s hrst hpause]
  constructor
  · rw [cycles, hfirst]
  · intro h0
    rw [h0, cycles_one, hfirst]

end Sys2Proof.Machine
end

section
/-! PROOFS of 10_state.md R17: no instruction reads the sound timer. -/

namespace Sys2Proof.Machine

variable (s : State) (b : Byte)

/-- Going on after a value that may be a fault is going on after what follows the value. -/
theorem andThen_orFault {α : Type} (e : Except Fault α) (next : α → Result) (k : State → Result) :
    andThen (orFault e next) k = orFault e fun a => andThen (next a) k := by
  cases e <;> rfl

theorem andThen_withAccess (n : Nat) (r : Result) (k : State → Result) :
    andThen (s.withAccess n r) k = s.withAccess n (andThen r k) := by
  unfold State.withAccess
  split <;> rfl

theorem skipIf_setSt (c : Bool) : skipIf c (s.setSt b) = andThen (skipIf c s) fun t => .next (t.setSt b) := by
  cases c <;> rfl

theorem writeBytes_setSt (bs : List Byte) :
    ∀ (s : State) (a : Nat), (s.setSt b).writeBytes a bs = (s.writeBytes a bs).setSt b := by
  induction bs with
  | nil => intro s a; rfl
  | cons c rest ih => intro s a; exact ih (s.writeByte a c) (a + 1)

theorem afterTransfer_setSt (x : Reg) : (s.setSt b).afterTransfer x = (s.afterTransfer x).setSt b := by
  unfold State.afterTransfer
  rw [State.setSt_cfg]
  cases s.cfg.qMemInc <;> rfl

theorem execRet_setSt : execRet (s.setSt b) = andThen (execRet s) fun t => .next (t.setSt b) := by
  unfold execRet
  by_cases h : 0 < s.sp.val
  · rw [pop_ok s h, pop_ok (s.setSt b) h]
    rfl
  · rw [pop_empty s h, pop_empty (s.setSt b) h]
    rfl

theorem execCall_setSt (nnn : Addr) :
    execCall nnn (s.setSt b) = andThen (execCall nnn s) fun t => .next (t.setSt b) := by
  unfold execCall
  by_cases h : s.sp.val < 16
  · rw [push_ok s _ h, push_ok (s.setSt b) _ h]
    rfl
  · rw [push_full s _ h, push_full (s.setSt b) _ h]
    rfl

theorem shiftOp_setSt (f g : Byte → Byte) (x y : Reg) :
    shiftOp f g x y (s.setSt b) = andThen (shiftOp f g x y s) fun t => .next (t.setSt b) := by
  unfold shiftOp
  rw [State.setSt_cfg]
  cases s.cfg.shiftFlagSource <;> rfl

theorem execLdVxK_setSt (x : Reg) :
    execLdVxK x (s.setSt b) = andThen (execLdVxK x s) fun t => .next (t.setSt b) := by
  have hkey : (s.setSt b).lowestKey = s.lowestKey := rfl
  unfold execLdVxK
  rw [hkey]
  cases s.lowestKey <;> rfl

theorem execUnknown_setSt (w : Word) :
    execUnknown w (s.setSt b) = andThen (execUnknown w s) fun t => .next (t.setSt b) := by
  unfold execUnknown
  rw [State.setSt_cfg]
  cases s.cfg.strictUnknown <;> rfl

/-- An instruction other than FX18 does with another `ST` what it does with its own, and keeps the other `ST`. -/
theorem exec_setSt {i : Instr} (hi : ∀ x : Reg, i ≠ .ldStVx x) :
    exec i (s.setSt b) = andThen (exec i s) fun t => .next (t.setSt b) := by
  cases i with
  | ldStVx x => exact absurd rfl (hi x)
  | ret => exact execRet_setSt s b
  | call nnn => exact execCall_setSt s b nnn
  | seImm => exact skipIf_setSt s b _
  | sneImm => exact skipIf_setSt s b _
  | seReg => exact skipIf_setSt s b _
  | sneReg => exact skipIf_setSt s b _
  | shr => exact shiftOp_setSt s b (fun a => a >>> 1) lowBitFlag _ _
  | shl => exact shiftOp_setSt s b (fun a => a <<< 1) highBitFlag _ _
  | skp x =>
    rw [exec, exec, execSkp, execSkp, andThen_orFault]
    simp only [← skipIf_setSt]
    rfl
  | sknp x =>
    rw [exec, exec, execSknp, execSknp, andThen_orFault]
    simp only [← skipIf_setSt]
    rfl
  | ldVxK x => exact execLdVxK_setSt s b x
  | ldFVx x =>
    rw [exec, exec, execLdFVx, execLdFVx, andThen_orFault]
    rfl
  | drw x y n =>
    rw [exec, exec, execDrw, execDrw, andThen_withAccess]
    rfl
  | ldBVx x =>
    rw [exec, exec, execLdBVx, execLdBVx, andThen_withAccess, writeBytes_setSt]
    rfl
  | ldMemVx x =>
    rw [exec, exec, execLdMemVx, execLdMemVx, andThen_withAccess, writeBytes_setSt, afterTransfer_setSt]
    rfl
  | ldVxMem x =>
    have hload : (s.setSt b).loadRegs x = (s.loadRegs x).setSt b := rfl
    rw [exec, exec, execLdVxMem, execLdVxMem, andThen_withAccess, hload, afterTransfer_setSt]
    rfl
  | unknown w => exact execUnknown_setSt s b w
  | _ => rfl

/-- Settles O55, from `exec_setSt`; FX18 puts its own value over whatever `ST` was. -/
theorem soundTimerIsUnreadable : Obligations.SoundTimerIsUnreadable :=
  fun _ s b => ⟨exec_setSt s b, fun _ => rfl⟩

end Sys2Proof.Machine
end

section
/-! PROOFS of 10_state.md R22 and R24: the effective quirk flags and the state after reset. -/

namespace Sys2Proof.Machine

/-- Settles O46: a combined option that is set wins in each of the three flags. -/
theorem effectiveQuirkFlags : Obligations.EffectiveQuirkFlags := by
  intro p shift jump memInc m
  simp [Params.withOptions, effectiveQuirk]

/-- The font lies at `FONT_BASE` after reset (20_memory.md R41). -/
theorem initByte_font (p : Params) (j : Fin 80) : p.initByte (p.fontBase.val + j.val) = p.fontData[j.val] := by
  have := p.fontBase.isLt
  unfold Params.initByte
  rw [if_neg (by omega), if_neg (by omega)]
  simp

/-- Outside the font memory is 0 after reset (20_memory.md R41). -/
theorem initByte_outside (p : Params) {a : Nat} (h : a < p.fontBase.val ∨ p.fontBase.val + 80 ≤ a) :
    p.initByte a = 0 := by
  unfold Params.initByte
  split_ifs with h1 h2
  · rfl
  · rfl
  · rw [Vector.getElem?_eq_none (by omega)]
    rfl

/-- A machine just constructed has the reset values of R24, whatever its parameters and input levels. -/
theorem construct_atReset (p : Params) (keyIn : Word) (randIn : Byte) : (State.construct p keyIn randIn).AtReset where
  regs r := by simp [State.reg, State.construct]
  index := rfl
  counter := rfl
  stackCount := rfl
  stackSlots k := by simp [State.construct]
  delay := rfl
  sound := rfl
  pixels row col hrow _ := by simp [Display.pixel, State.construct, hrow]
  keys := rfl
  memory a := rfl
  pulse := rfl
  report := rfl

/-- Settles O48: `State.reset` is a machine just constructed, with the default parameters. -/
theorem stateResetIsTheResetTable : Obligations.StateResetIsTheResetTable := by
  have h : State.reset.AtReset := construct_atReset _ _ _
  refine ⟨h.counter, h.index, h.stackCount, h.delay, h.sound, h.keys, h.pulse, h.report, rfl, rfl, rfl, rfl,
    h.regs, h.stackSlots, h.pixels, fun j => ?_, fun a ha => ?_⟩
  · rw [h.memory, initByte_font]
    rfl
  · rw [h.memory, initByte_outside _ ha]

/-- A machine just constructed meets the invariant when its entry point is one `PC` can hold. -/
theorem construct_inv (p : Params) (keyIn : Word) (randIn : Byte) (hentry : p.resetPc.toNat ≤ 0x10FE) :
    (State.construct p keyIn randIn).Inv where
  memory := by simp [Memory.wf, State.construct]
  index := by simp [State.construct]
  counter := hentry
  stack k hk := absurd hk (Nat.not_lt_zero _)
  quiet _ := rfl
  entry := hentry

/-- Settles O58: the default entry point is 0x200. -/
theorem theInvariantHoldsAtReset : Obligations.TheInvariantHoldsAtReset :=
  construct_inv _ _ _ (by decide)

end Sys2Proof.Machine
end

section
/-! PROOFS of the invariant of Safety.lean: every step keeps it.  Each of its clauses is about one part of the state, so an
instruction that does not write the part keeps the clause by `exec_keeps`, and the cases left are its writers. -/

namespace Sys2Proof.Machine

variable {i : Instr} {s t : State}

/-! ### An instruction and each clause -/

/-- FX33 and FX55 write inside memory, and so keep its canonical form. -/
theorem exec_memory_wf (h : exec i s = .next t) (hm : Memory.wf s.cfg s.mem) : Memory.wf t.cfg t.mem := by
  rw [(exec_keeps h).params]
  cases i with
  | ldBVx x =>
    obtain ⟨hin, rfl⟩ := execLdBVx_eq_next.1 h
    exact State.writeBytes_wf _ _ _ hm hin
  | ldMemVx x =>
    obtain ⟨hin, rfl⟩ := execLdMemVx_eq_next.1 h
    rw [State.afterTransfer_mem]
    refine State.writeBytes_wf _ _ _ hm ?_
    rw [List.length_take]
    omega
  | _ => rwa [(exec_keeps h).memory (by simp [partsWritten])]

theorem afterTransfer_index_lt (x : Reg) (hi : s.i.toNat < 4096) : (s.afterTransfer x).i.toNat < 4096 := by
  rw [State.afterTransfer_i]
  split
  · exact indexPlus_lt s _
  · exact hi

/-- R13: what an instruction puts into `I` has 12 bits. -/
theorem exec_index_lt (h : exec i s = .next t) (hi : s.i.toNat < 4096) : t.i.toNat < 4096 := by
  cases i with
  | ldI nnn =>
    cases h
    rw [State.setI_i, BitVec.toNat_setWidth]
    have := nnn.isLt
    omega
  | addIVx x => cases h; exact indexPlus_lt s _
  | ldFVx x =>
    obtain ⟨hglyph, rfl⟩ := execLdFVx_eq_next.1 h
    have := s.cfg.fontBase.isLt
    exact lt_of_le_of_lt (Nat.mod_le _ _) (by omega)
  | ldMemVx x =>
    obtain ⟨_, rfl⟩ := execLdMemVx_eq_next.1 h
    exact afterTransfer_index_lt x (by simpa using hi)
  | ldVxMem x =>
    obtain ⟨_, rfl⟩ := execLdVxMem_eq_next.1 h
    exact afterTransfer_index_lt x (by simpa using hi)
  | _ => rwa [(exec_keeps h).index (by simp [partsWritten])]

/-- Every return address in use is at most 0x1000, the highest `PC` a fetch leaves. -/
def State.ReturnsInside (s : State) : Prop := ∀ k : Fin 16, k.val < s.sp.val → s.stk[k.val].toNat ≤ 0x1000

/-- R81: CALL pushes the advanced `PC`, and RET only gives an entry up. -/
theorem exec_returnsInside (h : exec i s = .next t) (hpc : s.pc.toNat ≤ 0x1000) (hs : s.ReturnsInside) :
    t.ReturnsInside := by
  intro k hk
  cases i with
  | ret =>
    obtain ⟨hsp, rfl⟩ := execRet_eq_next.1 h
    exact hs k (Nat.lt_of_lt_of_le hk (Nat.sub_le _ _))
  | call nnn =>
    obtain ⟨hsp, rfl⟩ := execCall_eq_next.1 h
    simp only [State.setPc_sp, State.setPc_stk, Vector.getElem_set] at hk ⊢
    split
    · exact hpc
    · exact hs k (by omega)
  | _ =>
    rw [(exec_keeps h).stackCount (by simp [partsWritten])] at hk
    simp only [(exec_keeps h).stackSlots (by simp [partsWritten])]
    exact hs k hk

/-- R183: only an UNKNOWN word under `STRICT_UNKNOWN` is reported. -/
theorem exec_quiet (h : exec i s = .next t) (hs : s.cfg.strictUnknown = false → s.unknown = none) :
    t.cfg.strictUnknown = false → t.unknown = none := by
  rw [(exec_keeps h).params]
  intro hstrict
  cases i with
  | unknown w =>
    simp only [exec, execUnknown, hstrict] at h
    cases h
    exact hs hstrict
  | _ => rw [(exec_keeps h).report (by simp [partsWritten])]; exact hs hstrict

/-- R84: BNNN reaches highest, to 0xFFF + 0xFF; from a `PC` that a fetch inside memory has advanced no other instruction
passes 0x1002. -/
theorem exec_pc_le (h : exec i s = .next t) (hlo : 2 ≤ s.pc.toNat) (hhi : s.pc.toNat ≤ 0x1000) (hs : s.ReturnsInside) :
    t.pc.toNat ≤ 0x10FE := by
  have hskip (c : Prop) [Decidable c] : (if c then s.pc + 2 else s.pc).toNat ≤ 0x10FE := by
    split <;> bv_omega
  rw [exec_pc h]
  cases i with
  | ret =>
    obtain ⟨hsp, _⟩ := execRet_eq_next.1 h
    have hin : s.sp.val - 1 < 16 := by omega
    have htop : s.stk[s.sp.val - 1].toNat ≤ 0x1000 := hs ⟨s.sp.val - 1, hin⟩ (Nat.sub_one_lt_of_lt hsp)
    rw [pcAfter, Vector.getElem?_eq_getElem hin, Option.getD_some]
    omega
  | jp nnn =>
    have := nnn.isLt
    exact (Nat.mod_le _ _).trans (by omega)
  | call nnn =>
    have := nnn.isLt
    exact (Nat.mod_le _ _).trans (by omega)
  | jpOffset nnn =>
    rw [pcAfter, ← jumpReg_eq]
    have := nnn.isLt
    have := (s.reg (s.jumpReg nnn)).isLt
    exact (Nat.mod_le _ _).trans (by omega)
  | seImm => exact hskip _
  | sneImm => exact hskip _
  | seReg => exact hskip _
  | sneReg => exact hskip _
  | skp => exact hskip _
  | sknp => exact hskip _
  | ldVxK =>
    rw [pcAfter]
    split <;> bv_omega
  | _ => exact hhi.trans (by decide)

/-! ### An instruction step and a frame tick -/

/-- From a `PC` that a fetch inside memory has advanced, an instruction keeps the invariant. -/
theorem exec_inv (h : exec i s = .next t) (hlo : 2 ≤ s.pc.toNat) (hhi : s.pc.toNat ≤ 0x1000) (hs : s.Inv) : t.Inv where
  memory := exec_memory_wf h hs.memory
  index := exec_index_lt h hs.index
  counter := exec_pc_le h hlo hhi hs.stack
  stack := exec_returnsInside h hhi hs.stack
  quiet := exec_quiet h hs.quiet
  entry := by rw [(exec_keeps h).params]; exact hs.entry

/-- The advance keeps the invariant while the fetch is inside memory. -/
theorem advance_inv (hpc : s.advance.pc.toNat ≤ 0x1000) (hs : s.Inv) : s.advance.Inv :=
  { hs with counter := by omega }

theorem cycle_inv (h : cycle s = .next t) (hs : s.Inv) : t.Inv := by
  obtain ⟨hin, hexec⟩ := (cycle_eq_next s).1 h
  have hpc : s.advance.pc.toNat = s.pc.toNat + 2 := by
    unfold memSize at hin
    rw [State.advance_pc]
    bv_omega
  unfold memSize at hin
  exact exec_inv hexec (by omega) (by omega) (advance_inv (by omega) hs)

/-- The frame tick's prologue clears the report and touches nothing else the invariant speaks of. -/
theorem prologue_inv (hs : s.Inv) : s.prologue.Inv :=
  { hs with quiet := fun _ => rfl }

/-- Reset meets the invariant when the entry point is one `PC` can hold. -/
theorem assertReset_inv (hentry : s.cfg.resetPc.toNat ≤ 0x10FE) : s.assertReset.Inv :=
  { construct_inv s.cfg s.keyIn s.randIn hentry with }

/-- Settles O57: reset and pause at once, the frame tick by the prologue and then each instruction step. -/
theorem everyStepKeepsTheInvariant : Obligations.EveryStepKeepsTheInvariant := by
  intro s t hs h
  obtain ⟨_, rfl⟩ | ⟨_, _, rfl⟩ | ⟨_, _, hrun⟩ := step_eq_next s h
  · exact assertReset_inv hs.entry
  · exact hs
  · exact cycles_keeps State.Inv (fun _ _ => cycle_inv) _ _ _ hrun (prologue_inv hs)

end Sys2Proof.Machine
end

section
/-! PROOFS of 20_memory.md: a fetch above memory, and a fetch of bytes just stored. -/

namespace Sys2Proof.Machine

variable (s : State)

/-! ### A fetch above memory (R42) -/

theorem cycle_outside (h : ¬ s.pc.toNat + 2 ≤ memSize) :
    cycle s = .fault (.memOutOfRange s.pc (max s.pc.toNat memSize)) := by
  rw [cycle, fetch_outside s h, orFault_error]

/-- A run of instruction steps stops at the first one that faults. -/
theorem cycles_succ_fault {f : Fault} (n : Nat) (h : cycle s = .fault f) : cycles (n + 1) s = .fault f := by
  rw [cycles, h, andThen]

/-- Settles O41: the prologue leaves `PC` alone, so the tick's first instruction step is the one that faults. -/
theorem fetchAboveMemoryFaults : Obligations.FetchAboveMemoryFaults := by
  intro s h
  have hout : ¬ s.pc.toNat + 2 ≤ memSize := by unfold memSize; omega
  refine ⟨cycle_outside s hout, fun hrst hpause => ?_⟩
  rw [step_tick s hrst hpause]
  exact cycles_succ_fault _ _ (cycle_outside s.prologue hout)

/-! ### A fetch of stored bytes (R53) -/

/-- With `PC` at byte `j` of a run written inside memory, the fetch gives bytes `j` and `j + 1` of the run. -/
theorem fetch_of_written {u : State} {a j : Nat} {bs : List Byte} {hi lo : Byte}
    (hmem : ∀ a', u.byteAt a' = (s.writeBytes a bs).byteAt a') (hin : a + bs.length ≤ memSize)
    (hpc : u.pc.toNat = a + j) (hhi : bs[j]? = some hi) (hlo : bs[j + 1]? = some lo) :
    fetch u = .ok (wordOfBytes hi lo) := by
  have hj : j + 1 < bs.length := (List.getElem?_eq_some_iff.1 hlo).1
  have hfirst : u.byteAt (a + j) = hi := by
    rw [hmem, State.byteAt_writeBytes, if_pos (by omega), Nat.add_sub_cancel_left, hhi, Option.getD_some]
  have hsecond : u.byteAt (a + j + 1) = lo := by
    rw [hmem, State.byteAt_writeBytes, if_pos (by omega), Nat.add_assoc, Nat.add_sub_cancel_left, hlo, Option.getD_some]
  rw [fetch_inside u (by omega), hpc, hfirst, hsecond]

/-- Byte `r` of the run that FX55 stores is `V[r]`. -/
theorem storedRegs_getElem? {x r : Reg} (h : r ≤ x) : (s.v.toList.take (x.val + 1))[r.val]? = some (s.reg r) := by
  have hr : r.val < x.val + 1 := Nat.lt_succ_of_le h
  rw [List.getElem?_take_of_lt hr]
  simp [State.reg]

/-- Settles O34: both instructions leave a written run inside memory, and the fetch reads two neighbouring bytes of it. -/
theorem storesAreSeenByTheNextFetch : Obligations.StoresAreSeenByTheNextFetch := by
  intro x s t
  constructor
  · intro h a b hab hb
    obtain ⟨hin, rfl⟩ := execLdMemVx_eq_next.1 h
    have ha : a.val ≤ x.val := le_trans (by omega) (Fin.le_def.1 hb)
    refine fetch_of_written s (State.afterTransfer_byteAt _ x) ?_ ?_ (storedRegs_getElem? s ha)
      (hab ▸ storedRegs_getElem? s hb)
    · rw [List.length_take]
      omega
    · unfold memSize at hin
      exact Nat.mod_eq_of_lt (by omega)
  · intro h
    obtain ⟨hin, rfl⟩ := execLdBVx_eq_next.1 h
    exact fetch_of_written s (j := 0) (fun _ => rfl) hin rfl rfl rfl

end Sys2Proof.Machine
end

section
/-! PROOFS of 30_encoding.md: the decoder, the encoder and the opcode table agree.  Every word denotes what it decodes to,
which gives one round trip; the other one and the table follow, since the row of an instruction selects its word. -/

namespace Sys2Proof

variable {w : Word} {r : Row} {i : Instr}

/-! ### A row that selects a word fixes the fields its mask keeps -/

theorem selects_iff : r.selects w = true ↔ w &&& r.mask = r.matchBits := beq_iff_eq

theorem fieldOp_and (m : Word) : fieldOp (w &&& m) = fieldOp w &&& fieldOp m := BitVec.extractLsb'_and

theorem fieldN_and (m : Word) : fieldN (w &&& m) = fieldN w &&& fieldN m := BitVec.extractLsb'_and

theorem fieldNN_and (m : Word) : fieldNN (w &&& m) = fieldNN w &&& fieldNN m := BitVec.extractLsb'_and

theorem fieldOp_of_selects (h : r.selects w = true) (hmask : fieldOp r.mask = 0xF) :
    fieldOp r.matchBits = fieldOp w := by
  rw [← selects_iff.1 h, fieldOp_and, hmask]
  exact BitVec.and_allOnes

theorem fieldN_of_selects (h : r.selects w = true) (hmask : fieldN r.mask = 0xF) :
    fieldN r.matchBits = fieldN w := by
  rw [← selects_iff.1 h, fieldN_and, hmask]
  exact BitVec.and_allOnes

theorem fieldNN_of_selects (h : r.selects w = true) (hmask : fieldNN r.mask = 0xFF) :
    fieldNN r.matchBits = fieldNN w := by
  rw [← selects_iff.1 h, fieldNN_and, hmask]
  exact BitVec.and_allOnes

theorem isUnknownWord_iff : isUnknownWord w = true ↔ ∀ r ∈ namedRows, r.selects w = false := by
  simp [isUnknownWord]

/-- Every named row fixes the top nibble. -/
theorem fieldOp_mask_of_named (h : r ∈ namedRows) : fieldOp r.mask = 0xF := by
  revert r
  decide

/-- Whether a word is UNKNOWN is settled by the named rows of its top nibble. -/
theorem isUnknownWord_of_fieldOp {op : BitVec 4} (hop : fieldOp w = op)
    (hrows : ∀ r ∈ namedRows, fieldOp r.matchBits = op → r.selects w ≠ true) : isUnknownWord w = true := by
  refine isUnknownWord_iff.2 fun r hr => Bool.eq_false_iff.2 fun h => hrows r hr ?_ h
  exact (fieldOp_of_selects h (fieldOp_mask_of_named hr)).trans hop

/-- R65: the rows of the top nibble `op` ask for an `N` among `ns`, and the word has another. -/
theorem isUnknownWord_of_fieldN {op : BitVec 4} (ns : List (BitVec 4)) (hop : fieldOp w = op) (hn : fieldN w ∉ ns)
    (hrows : ∀ r ∈ namedRows, fieldOp r.matchBits = op → fieldN r.mask = 0xF ∧ fieldN r.matchBits ∈ ns) :
    isUnknownWord w = true := by
  refine isUnknownWord_of_fieldOp hop fun r hr hr' h => hn ?_
  obtain ⟨hmask, hmem⟩ := hrows r hr hr'
  rwa [fieldN_of_selects h hmask] at hmem

/-- R65: the rows of the top nibble `op` ask for an `NN` among `nns`, and the word has another. -/
theorem isUnknownWord_of_fieldNN {op : BitVec 4} (nns : List Byte) (hop : fieldOp w = op) (hnn : fieldNN w ∉ nns)
    (hrows : ∀ r ∈ namedRows, fieldOp r.matchBits = op → fieldNN r.mask = 0xFF ∧ fieldNN r.matchBits ∈ nns) :
    isUnknownWord w = true := by
  refine isUnknownWord_of_fieldOp hop fun r hr hr' h => hnn ?_
  obtain ⟨hmask, hmem⟩ := hrows r hr hr'
  rwa [fieldNN_of_selects h hmask] at hmem

/-! ### What the decoder reads is well-formed and encodes to the word -/

/-- `i` is an instruction of the table whose word is `w`. -/
def Denotes (w : Word) (i : Instr) : Prop := i.wellFormed = true ∧ encode i = w

theorem packNNN_of_fields {op : BitVec 4} (hop : fieldOp w = op) : packNNN op (fieldNNN w) = w :=
  hop ▸ packNNN_fields w

theorem packXNN_of_fields {op : BitVec 4} {nn : Byte} (hop : fieldOp w = op) (hnn : fieldNN w = nn) :
    packXNN op (fieldX w) nn = w := by
  subst hop hnn
  exact packXNN_fields w

theorem packXYN_of_fields {op n : BitVec 4} (hop : fieldOp w = op) (hn : fieldN w = n) :
    packXYN op (fieldX w) (fieldY w) n = w := by
  subst hop hn
  exact packXYN_fields w

theorem decode0_denotes (hop : fieldOp w = 0x0) : Denotes w (decode0 w) := by
  have hword : packNNN 0x0 (fieldNNN w) = w := packNNN_of_fields hop
  unfold decode0
  split_ifs with hcls hret
  · exact ⟨rfl, hcls.symm⟩
  · exact ⟨rfl, hret.symm⟩
  · refine ⟨?_, hword⟩
    have hE0 : fieldNNN w ≠ 0x0E0 := fun h => hcls (by rw [← hword, h]; rfl)
    have hEE : fieldNNN w ≠ 0x0EE := fun h => hret (by rw [← hword, h]; rfl)
    simpa [Instr.wellFormed] using ⟨hE0, hEE⟩

theorem decode8_denotes (hop : fieldOp w = 0x8) : Denotes w (decode8 w) := by
  unfold decode8
  split
  case h_10 =>
    exact ⟨isUnknownWord_of_fieldN [0x0, 0x1, 0x2, 0x3, 0x4, 0x5, 0x6, 0x7, 0xE] hop (by simp_all) (by decide), rfl⟩
  all_goals exact ⟨rfl, packXYN_of_fields hop ‹_›⟩

theorem decodeE_denotes (hop : fieldOp w = 0xE) : Denotes w (decodeE w) := by
  unfold decodeE
  split
  case h_3 => exact ⟨isUnknownWord_of_fieldNN [0x9E, 0xA1] hop (by simp_all) (by decide), rfl⟩
  all_goals exact ⟨rfl, packXNN_of_fields hop ‹_›⟩

theorem decodeF_denotes (hop : fieldOp w = 0xF) : Denotes w (decodeF w) := by
  unfold decodeF
  split
  case h_10 =>
    refine ⟨?_, rfl⟩
    exact isUnknownWord_of_fieldNN [0x07, 0x0A, 0x15, 0x18, 0x1E, 0x29, 0x33, 0x55, 0x65] hop (by simp_all) (by decide)
  all_goals exact ⟨rfl, packXNN_of_fields hop ‹_›⟩

/-- R63: every word denotes the instruction it decodes to (the arms `h_1` to `h_16` are the top nibbles 0 to F). -/
theorem decodeWord_denotes (w : Word) : Denotes w (decodeWord w) := by
  unfold decodeWord
  split <;> rename_i hop
  case h_1 => exact decode0_denotes hop
  case h_6 | h_10 =>
    split_ifs with hn
    · exact ⟨rfl, packXYN_of_fields hop hn⟩
    · exact ⟨isUnknownWord_of_fieldN [0x0] hop (by simpa using hn) (by decide), rfl⟩
  case h_9 => exact decode8_denotes hop
  case h_14 => exact ⟨rfl, packXYN_of_fields hop rfl⟩
  case h_15 => exact decodeE_denotes hop
  case h_16 =>
    refine decodeF_denotes ?_
    generalize fieldOp w = op at *
    revert op
    decide
  case h_4 | h_5 | h_7 | h_8 | h_13 => exact ⟨rfl, packXNN_of_fields hop rfl⟩
  all_goals exact ⟨rfl, packNNN_of_fields hop⟩

/-- Settles O36, from `decodeWord_denotes`. -/
theorem encodeDecodeRoundTrip : Obligations.EncodeDecodeRoundTrip := decodeWord_denotes

/-! ### What the encoder writes is decoded back -/

open Laws in
/-- The row of an instruction selects its word. -/
theorem row_selects_encode : ∀ i : Instr, i.row.selects (encode i) = true
  | .cls => MatchesRow.cls
  | .ret => MatchesRow.ret
  | .sys nnn => MatchesRow.sys nnn
  | .jp nnn => MatchesRow.jp nnn
  | .call nnn => MatchesRow.call nnn
  | .seImm x nn => MatchesRow.seImm x nn
  | .sneImm x nn => MatchesRow.sneImm x nn
  | .seReg x y => MatchesRow.seReg x y
  | .ldImm x nn => MatchesRow.ldImm x nn
  | .addImm x nn => MatchesRow.addImm x nn
  | .ldReg x y => MatchesRow.ldReg x y
  | .orReg x y => MatchesRow.orReg x y
  | .andReg x y => MatchesRow.andReg x y
  | .xorReg x y => MatchesRow.xorReg x y
  | .addReg x y => MatchesRow.addReg x y
  | .sub x y => MatchesRow.sub x y
  | .shr x y => MatchesRow.shr x y
  | .subn x y => MatchesRow.subn x y
  | .shl x y => MatchesRow.shl x y
  | .sneReg x y => MatchesRow.sneReg x y
  | .ldI nnn => MatchesRow.ldI nnn
  | .jpOffset nnn => MatchesRow.jpOffset nnn
  | .rnd x nn => MatchesRow.rnd x nn
  | .drw x y n => MatchesRow.drw x y n
  | .skp x => MatchesRow.skp x
  | .sknp x => MatchesRow.sknp x
  | .ldVxDt x => MatchesRow.ldVxDt x
  | .ldVxK x => MatchesRow.ldVxK x
  | .ldDtVx x => MatchesRow.ldDtVx x
  | .ldStVx x => MatchesRow.ldStVx x
  | .addIVx x => MatchesRow.addIVx x
  | .ldFVx x => MatchesRow.ldFVx x
  | .ldBVx x => MatchesRow.ldBVx x
  | .ldMemVx x => MatchesRow.ldMemVx x
  | .ldVxMem x => MatchesRow.ldVxMem x
  | .unknown w => MatchesRow.unknown w

/-- An instruction's row is a named one, or the instruction is an UNKNOWN word. -/
theorem row_named_or_unknown (i : Instr) : i.row ∈ namedRows ∨ ∃ w, i = .unknown w := by
  cases i with
  | unknown w => exact .inr ⟨w, rfl⟩
  | _ => exact .inl (by simp [Instr.row, namedRows])

/-- R65: a word that no named row selects decodes to UNKNOWN, since the row of a named instruction selects its word. -/
theorem decodeWord_of_isUnknownWord (h : isUnknownWord w = true) : decodeWord w = .unknown w := by
  obtain ⟨_, hw⟩ := decodeWord_denotes w
  obtain hrow | ⟨v, hv⟩ := row_named_or_unknown (decodeWord w)
  · have hsel := row_selects_encode (decodeWord w)
    rw [hw, isUnknownWord_iff.1 h _ hrow] at hsel
    cases hsel
  · rw [hv] at hw ⊢
    exact congrArg _ hw

theorem decode0_packNNN {nnn : Addr} (h : (Instr.sys nnn).wellFormed = true) :
    decode0 (packNNN 0x0 nnn) = .sys nnn := by
  obtain ⟨hE0, hEE⟩ : nnn ≠ 0x0E0 ∧ nnn ≠ 0x0EE := by simpa [Instr.wellFormed] using h
  have hfield : fieldNNN (packNNN 0x0 nnn) = nnn := fieldNNN_packNNN 0x0 nnn
  have hcls : packNNN 0x0 nnn ≠ 0x00E0 := fun hw => hE0 (hfield.symm.trans (congrArg fieldNNN hw))
  have hret : packNNN 0x0 nnn ≠ 0x00EE := fun hw => hEE (hfield.symm.trans (congrArg fieldNNN hw))
  rw [decode0, if_neg hcls, if_neg hret, hfield]

theorem decodeWord_encode (hi : i.wellFormed = true) : decodeWord (encode i) = i := by
  cases i with
  | cls => rfl
  | ret => rfl
  | sys nnn => rw [encode, decodeWord, fieldOp_packNNN]; exact decode0_packNNN hi
  | unknown w => exact decodeWord_of_isUnknownWord hi
  | _ => simp [encode, decodeWord, decode8, decodeE, decodeF]

/-- Settles O35: from the word by `decodeWord_encode`, and the two bytes make the word. -/
theorem decodeEncodeRoundTrip : Obligations.DecodeEncodeRoundTrip := by
  intro i rest hi
  have hdec := decodeWord_encode hi
  refine ⟨hdec, ?_⟩
  rw [encodeBytes, List.cons_append, List.cons_append, List.nil_append, decode, wordOfBytes_bytes, hdec]

/-! ### The first row of the table that selects a word -/

/-- Rows that both select a word agree on the bits both fix. -/
theorem matchBits_agree {q : Row} (hq : q.selects w = true) (hr : r.selects w = true) :
    q.matchBits &&& r.mask = r.matchBits &&& q.mask := by
  rw [← selects_iff.1 hq, ← selects_iff.1 hr, BitVec.and_assoc, BitVec.and_assoc, BitVec.and_comm q.mask]

/-- A named row disagrees with every later one, but for CLS and RET before SYS (R64): their rows hold one word each, which
decodes to an instruction of another row than SYS. -/
theorem namedRows_disagree : namedRows.Pairwise fun q r =>
    q.matchBits &&& r.mask ≠ r.matchBits &&& q.mask ∨ q.mask = 0xFFFF ∧ (decodeWord q.matchBits).row ≠ r := by
  decide

/-- A row that fixes all sixteen bits holds the word of one instruction only. -/
theorem decodeWord_of_wholeRow (hi : i.wellFormed = true) (hmask : r.mask = 0xFFFF) (h : r.selects (encode i) = true) :
    decodeWord r.matchBits = i := by
  rw [← selects_iff.1 h, hmask]
  exact (congrArg decodeWord BitVec.and_allOnes).trans (decodeWord_encode hi)

theorem firstRow_of_isUnknownWord (h : isUnknownWord w = true) : firstRow w = some (Instr.unknown w).row := by
  have hnone : namedRows.find? (·.selects w) = none := by
    simpa using isUnknownWord_iff.1 h
  rw [firstRow, opcodeRows, List.find?_append, hnone]
  simp [Row.selects, Instr.row]

/-- R64: the first row that selects an instruction's word is the instruction's own. -/
theorem firstRow_encode (hi : i.wellFormed = true) : firstRow (encode i) = some i.row := by
  obtain hrow | ⟨w, rfl⟩ := row_named_or_unknown i
  · obtain ⟨before, after, hsplit⟩ := List.append_of_mem hrow
    obtain ⟨-, -, hdis⟩ := List.pairwise_append.1 (hsplit ▸ namedRows_disagree)
    have htable : opcodeRows = before ++ i.row :: (after ++ [(Instr.unknown 0).row]) := by
      rw [opcodeRows, hsplit, List.append_assoc, List.cons_append]
      rfl
    have hbefore : ∀ q ∈ before, q.selects (encode i) ≠ true := by
      intro q hq hsel
      obtain hne | ⟨hwhole, hne⟩ := hdis q hq i.row List.mem_cons_self
      · exact hne (matchBits_agree hsel (row_selects_encode i))
      · exact hne (congrArg Instr.row (decodeWord_of_wholeRow hi hwhole hsel))
    exact List.find?_eq_some_iff_append.2 ⟨row_selects_encode i, before, _, htable, by simpa using hbefore⟩
  · exact firstRow_of_isUnknownWord hi

/-- Settles O37: a word is the word of the instruction it decodes to, so `firstRow_encode` names its row. -/
theorem decodeFollowsTheOpcodeTable : Obligations.DecodeFollowsTheOpcodeTable := by
  intro w
  obtain ⟨hwf, hword⟩ := decodeWord_denotes w
  have hfirst := firstRow_encode hwf
  rwa [hword] at hfirst

/-- Settles O38 by evaluating the decoder. -/
theorem sampleWordsDecode : Obligations.SampleWordsDecode := by
  unfold Obligations.SampleWordsDecode
  decide

end Sys2Proof
end

section
/-! PROOFS of 60_exceptions.md R180: no step is refused.  An instruction that can stop does so by `orFault` or by
`withAccess`, and both stop with a named fault. -/

namespace Sys2Proof.Machine

variable {s : State} {q : Refusal}

theorem shiftOp_ne_refused (f g : Byte → Byte) (x y : Reg) : shiftOp f g x y s ≠ .refused q := by
  unfold shiftOp
  split <;> exact nofun

/-- R63, R180: every instruction has a meaning, which goes on or ends in a named fault. -/
theorem exec_ne_refused (i : Instr) : exec i s ≠ .refused q := by
  intro h
  cases i with
  | ret | call | skp | sknp | ldFVx =>
    obtain ⟨_, _, hnext⟩ := orFault_eq_refused.1 h
    cases hnext
  | drw | ldBVx | ldMemVx | ldVxMem => cases withAccess_ne_refused s h
  | shr x y => exact shiftOp_ne_refused (fun a => a >>> 1) lowBitFlag x y h
  | shl x y => exact shiftOp_ne_refused (fun a => a <<< 1) highBitFlag x y h
  | _ => cases h

theorem cycle_ne_refused (s : State) : cycle s ≠ .refused q := by
  intro h
  obtain ⟨w, _, hexec⟩ := orFault_eq_refused.1 h
  exact exec_ne_refused (decodeWord w) hexec

theorem cycles_ne_refused (n : Nat) : ∀ s : State, cycles n s ≠ .refused q := by
  induction n with
  | zero => exact fun _ => nofun
  | succ n ih =>
    intro s h
    obtain hfirst | ⟨t, _, hrest⟩ := andThen_eq_refused.1 h
    · exact cycle_ne_refused s hfirst
    · exact ih t hrest

/-- Settles O54: reset and pause answer a state, and no instruction of the frame tick is refused. -/
theorem noStepIsRefused : Obligations.NoStepIsRefused := by
  intro s q
  unfold step frameTick
  split_ifs
  · exact nofun
  · exact nofun
  · exact cycles_ne_refused _ _

end Sys2Proof.Machine
end

section
/-! PROOFS of 40_control_flow.md: SYS, the jumps, the two call-stack instructions and the UNKNOWN words.  The decoding half
of a statement is `decodeWord_encode` seen through the word's nibbles. -/

namespace Sys2Proof.Machine

variable {s : State}

/-! ### Words, jump targets and the faults of the call stack -/

/-- A word of format `NNN`, written by its nibbles, decodes to the instruction of that format. -/
theorem decodeWord_wordNNN {i : Instr} {op : BitVec 4} {nnn : Addr} (hi : i.wellFormed = true)
    (hword : encode i = packNNN op nnn) : decodeWord (wordNNN op.toNat nnn.toNat) = i := by
  rw [wordNNN_eq_pack, ← hword]
  exact decodeWord_encode hi

theorem addr_zext_toNat (nnn : Addr) : (nnn.setWidth 16).toNat = nnn.toNat :=
  BitVec.toNat_setWidth_of_le (by decide)

/-- R84: 0xFFF + 0xFF fits 16 bits, so BNNN's sum is exact. -/
theorem jumpTarget_toNat (nnn : Addr) (b : Byte) :
    (nnn.setWidth 16 + b.setWidth 16).toNat = nnn.toNat + b.toNat := by
  have hnnn := nnn.isLt
  have hb := b.isLt
  rw [BitVec.toNat_add, addr_zext_toNat, BitVec.toNat_setWidth_of_le (by decide)]
  exact Nat.mod_eq_of_lt (by omega)

theorem execRet_empty (h : s.sp.val = 0) : execRet s = .fault (.stackUnderflow s.instrPc) := by
  rw [execRet, pop_empty s (by omega), orFault_error]

theorem execCall_full (nnn : Addr) (h : s.sp.val = 16) : execCall nnn s = .fault (.stackOverflow s.instrPc) := by
  rw [execCall, push_full s s.pc (by omega), orFault_error]

theorem execUnknown_lenient (w : Word) (h : s.cfg.strictUnknown = false) : execUnknown w s = .next s := by
  simp [execUnknown, h]

theorem execUnknown_strict (w : Word) (h : s.cfg.strictUnknown = true) :
    execUnknown w s = .next (s.report w s.instrPc) := by
  simp [execUnknown, h]

/-! ### The statements -/

/-- Settles O1: the two constants left out are the words of CLS and RET, every other one is a well-formed SYS. -/
theorem sysHasNoEffect : Obligations.SysHasNoEffect := by
  intro nnn s hE0 hEE
  have hwf : (Instr.sys nnn).wellFormed = true := by
    simpa [Instr.wellFormed] using ⟨hE0, hEE⟩
  exact ⟨decodeWord_wordNNN (op := 0x0) hwf rfl, rfl⟩

/-- Settles O2, from what `execRet_eq_next` says of a stack in use; the bound is the invariant's clause on the stack. -/
theorem retPopsTheReturnAddress : Obligations.RetPopsTheReturnAddress := by
  refine ⟨decodeWord_encode (i := .ret) rfl, fun s => ⟨fun k hk => ⟨?_, fun hinv => hinv.stack k (by omega)⟩,
    execRet_empty⟩⟩
  refine ⟨_, execRet_eq_next.2 ⟨by omega, rfl⟩, ?_, ?_, rfl⟩
  · simp [hk]
  · simp [hk]

/-- Settles O3: the constant keeps its value when it is widened to 16 bits. -/
theorem jpSetsPc : Obligations.JpSetsPc := by
  intro nnn s
  exact ⟨decodeWord_wordNNN (op := 0x1) rfl rfl, s.setPc (nnn.setWidth 16), rfl, addr_zext_toNat nnn, rfl⟩

/-- Settles O4, from what `execCall_eq_next` says of a stack with a free slot. -/
theorem callPushesTheReturnAddress : Obligations.CallPushesTheReturnAddress := by
  intro nnn s
  refine ⟨decodeWord_wordNNN (op := 0x2) rfl rfl, fun k hk => ?_, execCall_full nnn⟩
  refine ⟨_, execCall_eq_next.2 ⟨by omega, rfl⟩, ?_, fun j hj => ?_, ?_, addr_zext_toNat nnn, rfl⟩
  · simp [hk]
  · rw [State.setPc_stk]
    exact Vector.getElem_set_ne (by omega) j.isLt (by omega)
  · simp [hk]

/-- Settles O5: `jumpReg_eq` names the register that is added, `jumpTarget_toNat` makes the sum exact. -/
theorem jumpWithOffsetAddsARegister : Obligations.JumpWithOffsetAddsARegister := by
  intro nnn x s hx
  have hreg : Fin.ofNat 16 (nnn.toNat / 256) = x := by simp [← hx]
  refine ⟨decodeWord_wordNNN (op := 0xB) rfl rfl, _, rfl, rfl, fun hmode => ?_, fun hmode => ?_⟩
  · rw [State.setPc_pc, jumpTarget_toNat, jumpReg_eq, if_pos hmode]
  · rw [State.setPc_pc, jumpTarget_toNat, jumpReg_eq, if_neg (by simp [hmode]), hreg]

/-- Settles O6: `STRICT_UNKNOWN` decides whether the word is reported, and nothing else happens. -/
theorem unknownWordIsANoOp : Obligations.UnknownWordIsANoOp := by
  intro w s hw
  exact ⟨decodeWord_of_isUnknownWord hw, execUnknown_lenient w,
    fun hstrict => ⟨s.report w s.instrPc, execUnknown_strict w hstrict, rfl, rfl, rfl, rfl⟩⟩

end Sys2Proof.Machine
end

section
/-! PROOFS of 41_skip.md: the four skips that compare a register with a constant or with another register. -/

namespace Sys2Proof.Machine

/-! ### Words of the formats `XNN` and `XYN`, and a skip on a comparison of two bytes -/

/-- A word of format `XNN`, written by its nibbles, decodes to the instruction of that format. -/
theorem decodeWord_wordXNN {i : Instr} {op : BitVec 4} {x : Reg} {nn : Byte} (hi : i.wellFormed = true)
    (hword : encode i = packXNN op x nn) : decodeWord (wordXNN op.toNat x.val nn.toNat) = i := by
  rw [wordXNN_eq_pack, ← hword]
  exact decodeWord_encode hi

/-- A word of format `XYN`, written by its nibbles, decodes to the instruction of that format. -/
theorem decodeWord_wordXYN {i : Instr} {op n : BitVec 4} {x y : Reg} (hi : i.wellFormed = true)
    (hword : encode i = packXYN op x y n) : decodeWord (wordXYN op.toNat x.val y.val n.toNat) = i := by
  rw [wordXYN_eq_pack, ← hword]
  exact decodeWord_encode hi

variable (a b : Byte) (s : State)

theorem skipIf_beq : skipIf (a == b) s = .next { s with pc := if a = b then s.pc + 2 else s.pc } := by
  simp only [skipIf_eq, beq_iff_eq]

theorem skipIf_bne : skipIf (a != b) s = .next { s with pc := if a = b then s.pc else s.pc + 2 } := by
  simp only [skipIf_eq, bne_iff_ne, ite_not]

/-! ### The statements -/

/-- Settles O8: SE skips when register and constant agree, SNE when they do not. -/
theorem skipsOnAConstant : Obligations.SkipsOnAConstant := by
  intro x nn s
  have hse : decodeWord (wordXNN 0x3 x.val nn.toNat) = .seImm x nn := decodeWord_wordXNN (op := 0x3) rfl rfl
  have hsne : decodeWord (wordXNN 0x4 x.val nn.toNat) = .sneImm x nn := decodeWord_wordXNN (op := 0x4) rfl rfl
  exact ⟨hse, hsne, skipIf_beq (s.reg x) nn s, skipIf_bne (s.reg x) nn s⟩

/-- Settles O9: SE skips when the two registers agree, SNE when they do not; `X = Y` needs no case of its own. -/
theorem skipsOnTwoRegisters : Obligations.SkipsOnTwoRegisters := by
  intro x y s
  have hse : decodeWord (wordXYN 0x5 x.val y.val 0) = .seReg x y := decodeWord_wordXYN (op := 0x5) (n := 0) rfl rfl
  have hsne : decodeWord (wordXYN 0x9 x.val y.val 0) = .sneReg x y := decodeWord_wordXYN (op := 0x9) (n := 0) rfl rfl
  exact ⟨hse, hsne, skipIf_beq (s.reg x) (s.reg y) s, skipIf_bne (s.reg x) (s.reg y) s⟩

end Sys2Proof.Machine
end

section
/-! PROOFS of 42_immediate.md: load and add immediate, load index, random.  What a register reads after a write is
`reg_setReg`; the frame is the record update that `setReg`, `setI` and `drawn` are. -/

namespace Sys2Proof.Machine

/-- R103: a byte under the mask has no bit outside it. -/
theorem and_and_not_mask (b nn : Byte) : b &&& nn &&& ~~~nn = 0 := by
  rw [BitVec.and_assoc, BitVec.and_not_self]
  exact BitVec.and_zero

/-! ### The statements -/

/-- Settles O10: the next state is `s.setReg x nn`. -/
theorem loadConstant : Obligations.LoadConstant := by
  intro x nn s
  exact ⟨decodeWord_wordXNN (op := 0x6) rfl rfl, s.setReg x nn, rfl, rfl, fun r => reg_setReg s x r nn⟩

/-- Settles O11: the sum of two bytes wraps in `BitVec.toNat_add`, and only the register `x` is written. -/
theorem addConstantWritesNoFlag : Obligations.AddConstantWritesNoFlag := by
  intro x nn s
  refine ⟨decodeWord_wordXNN (op := 0x7) rfl rfl, s.setReg x (s.reg x + nn), rfl, rfl, ?_, fun r hr => ?_⟩
  · rw [reg_setReg_self, BitVec.toNat_add]
  · rw [reg_setReg, if_neg hr]

/-- Settles O12: the constant keeps its value, below 2^12, when it is widened to 16 bits. -/
theorem loadIndex : Obligations.LoadIndex := by
  intro nnn s
  have hvalue : (s.setI (nnn.setWidth 16)).i.toNat = nnn.toNat := addr_zext_toNat nnn
  exact ⟨decodeWord_wordNNN (op := 0xA) rfl rfl, s.setI (nnn.setWidth 16), rfl, rfl, hvalue, hvalue ▸ nnn.isLt⟩

/-- Settles O13: the draw is the byte at `rand_in` before the supply moves on, and `drawn` writes no register. -/
theorem randomByteUnderMask : Obligations.RandomByteUnderMask := by
  intro x nn s
  have hreg (r : Reg) :
      ((s.setReg x (s.randIn &&& nn)).drawn).reg r = if r = x then s.randIn &&& nn else s.reg r := by
    rw [State.drawn_reg, reg_setReg]
  refine ⟨decodeWord_wordXNN (op := 0xC) rfl rfl, (s.setReg x (s.randIn &&& nn)).drawn, rfl, rfl, hreg, ?_⟩
  rw [hreg x, if_pos rfl, and_and_not_mask]

end Sys2Proof.Machine
end

section
/-! PROOFS of 43_alu.md: the 8XY_ family.  `aluOp_next` says once what the instructions of R119 (a) do, `shiftOp_toNat` what
the two shifts do; each statement adds the arithmetic of its own result and flag. -/

namespace Sys2Proof.Machine

/-! ### The values written -/

/-- R114: the carry out of bit 7 is the exact sum divided by 256. -/
theorem carryFlag_toNat (a b : Byte) : (carryFlag a b).toNat = (a.toNat + b.toNat) / 256 := by
  have ha := a.isLt
  have hb := b.isLt
  rw [carryFlag, flagOf_toNat]
  by_cases h : 255 < a.toNat + b.toNat
  · rw [decide_eq_true h, Bool.toNat_true]
    omega
  · rw [decide_eq_false h, Bool.toNat_false]
    omega

/-- R115, R117: equal operands give 0. -/
theorem greaterFlag_eq (a b : Byte) : greaterFlag a b = if a.toNat > b.toNat then 1 else 0 := by
  simp only [greaterFlag, flagOf, decide_eq_true_eq, gt_iff_lt]

theorem sub_toNat (a b : Byte) : (a - b).toNat = (256 + a.toNat - b.toNat) % 256 := by
  have hb := b.isLt
  rw [BitVec.toNat_sub]
  omega

theorem ushiftRight_one_toNat (a : Byte) : (a >>> 1).toNat = a.toNat / 2 := by
  rw [BitVec.toNat_ushiftRight, Nat.shiftRight_one]

theorem shiftLeft_one_toNat (a : Byte) : (a <<< 1).toNat = 2 * a.toNat % 256 := by
  rw [BitVec.toNat_shiftLeft, Nat.shiftLeft_eq, pow_one, mul_comm]

/-! ### The shape of R119 (a): result, then flag -/

section
variable (f g : Byte → Byte → Byte) (x y : Reg) (s : State)

/-- R119 (a): every register after the instruction; the flag is written last, so it wins for `X = 15`. -/
theorem aluOp_next : ∃ t, aluOp f g x y s = .next t ∧ t = { s with v := t.v } ∧
    ∀ r : Reg, t.reg r =
      if r = 15 then g (s.reg x) (s.reg y) else if r = x then f (s.reg x) (s.reg y) else s.reg r :=
  ⟨_, rfl, rfl, fun r => by rw [reg_setFlag, reg_setReg]⟩

/-- R119 (a) seen from the flag, the destination and the registers that are neither. -/
theorem aluOp_next_parts : ∃ t, aluOp f g x y s = .next t ∧ t = { s with v := t.v } ∧
    t.reg 15 = g (s.reg x) (s.reg y) ∧ (x ≠ 15 → t.reg x = f (s.reg x) (s.reg y)) ∧
    ∀ r : Reg, r ≠ x → r ≠ 15 → t.reg r = s.reg r := by
  obtain ⟨t, hnext, hframe, hreg⟩ := aluOp_next f g x y s
  refine ⟨t, hnext, hframe, ?_, fun hx => ?_, fun r hrx hr => ?_⟩
  · rw [hreg, if_pos rfl]
  · rw [hreg, if_neg hx, if_pos rfl]
  · rw [hreg, if_neg hr, if_neg hrx]

/-- R115 and, with the operands exchanged, R117: a difference under the strict flag. -/
theorem aluOp_difference {a b : Byte} (hf : f (s.reg x) (s.reg y) = a - b)
    (hg : g (s.reg x) (s.reg y) = greaterFlag a b) : ∃ t, aluOp f g x y s = .next t ∧ t = { s with v := t.v } ∧
    t.reg 15 = (if a.toNat > b.toNat then 1 else 0) ∧
    (x ≠ 15 → (t.reg x).toNat = (256 + a.toNat - b.toNat) % 256) ∧
    ∀ r : Reg, r ≠ x → r ≠ 15 → t.reg r = s.reg r := by
  obtain ⟨t, hnext, hframe, hflag, hresult, hother⟩ := aluOp_next_parts f g x y s
  refine ⟨t, hnext, hframe, ?_, fun hx => ?_, hother⟩
  · rw [hflag, hg, greaterFlag_eq]
  · rw [hresult hx, hf, sub_toNat]

end

/-! ### The shape of R119 (b): the shifts -/

section
variable {f g : Byte → Byte} {x y : Reg} {s : State}

theorem shiftReg_eq (x y : Reg) (s : State) : s.shiftReg x y = if s.cfg.qShift = .legacy then y else x := by
  unfold State.shiftReg
  cases s.cfg.qShift <;> rfl

/-- The flag of the entry value first, then the shift of what the source register then holds. -/
theorem shiftOp_preCopy (h : s.cfg.shiftFlagSource = .preCopy) :
    ∃ t, shiftOp f g x y s = .next t ∧ t = { s with v := t.v } ∧
    ∀ r : Reg, t.reg r =
      if r = x then f (if s.shiftReg x y = 15 then g (s.reg x) else s.reg (s.shiftReg x y))
      else if r = 15 then g (s.reg x) else s.reg r := by
  unfold shiftOp
  rw [h]
  refine ⟨_, rfl, rfl, fun r => ?_⟩
  rw [reg_setReg, reg_setReg_self, reg_setFlag]
  by_cases hr : r = x
  · rw [if_pos hr, if_pos hr]
  · rw [if_neg hr, if_neg hr, reg_setReg, if_neg hr, reg_setFlag]

/-- The shift first, then the flag of the value shifted. -/
theorem shiftOp_postCopy (h : s.cfg.shiftFlagSource = .postCopy) :
    ∃ t, shiftOp f g x y s = .next t ∧ t = { s with v := t.v } ∧
    ∀ r : Reg, t.reg r =
      if r = 15 then g (s.reg (s.shiftReg x y))
      else if r = x then f (s.reg (s.shiftReg x y)) else s.reg r := by
  unfold shiftOp
  rw [h]
  exact ⟨_, rfl, rfl, fun r => by rw [reg_setFlag, reg_setReg]⟩

/-- R116 and R118 at once: a shift whose result and flag are `F` and `G` on numbers, under all four settings. -/
theorem shiftOp_toNat {F G : Nat → Nat} {z : Reg} (hf : ∀ b, (f b).toNat = F b.toNat)
    (hg : ∀ b, (g b).toNat = G b.toNat) (hz : z = if s.cfg.qShift = .legacy then y else x) :
    ∃ t, shiftOp f g x y s = .next t ∧ t = { s with v := t.v } ∧
      (s.cfg.shiftFlagSource = .preCopy → ∀ r : Reg, (t.reg r).toNat =
        if r = x then F (if z = 15 then G (s.reg x).toNat else (s.reg z).toNat)
        else if r = 15 then G (s.reg x).toNat else (s.reg r).toNat) ∧
      (s.cfg.shiftFlagSource = .postCopy → ∀ r : Reg, (t.reg r).toNat =
        if r = 15 then G (s.reg z).toNat
        else if r = x then F (s.reg z).toNat else (s.reg r).toNat) := by
  obtain rfl : z = s.shiftReg x y := hz.trans (shiftReg_eq x y s).symm
  cases hsource : s.cfg.shiftFlagSource with
  | preCopy =>
    obtain ⟨t, hnext, hframe, hreg⟩ := shiftOp_preCopy (f := f) (g := g) (x := x) (y := y) hsource
    refine ⟨t, hnext, hframe, fun _ r => ?_, nofun⟩
    simp only [hreg, apply_ite BitVec.toNat, hf, hg]
  | postCopy =>
    obtain ⟨t, hnext, hframe, hreg⟩ := shiftOp_postCopy (f := f) (g := g) (x := x) (y := y) hsource
    refine ⟨t, hnext, hframe, nofun, fun _ r => ?_⟩
    simp only [hreg, apply_ite BitVec.toNat, hf, hg]

end

/-! ### The statements -/

/-- Settles O14: the next state is `s.setReg x (s.reg y)`. -/
theorem copyRegister : Obligations.CopyRegister := by
  intro x y s
  exact ⟨decodeWord_wordXYN (op := 0x8) (n := 0x0) rfl rfl, s.setReg x (s.reg y), rfl, rfl,
    fun r => reg_setReg s x r (s.reg y)⟩

/-- Settles O15: three uses of `aluOp_next`, with the constant flag 0. -/
theorem logicalOpsClearTheFlag : Obligations.LogicalOpsClearTheFlag := by
  intro x y s
  exact ⟨decodeWord_wordXYN (op := 0x8) (n := 0x1) rfl rfl, decodeWord_wordXYN (op := 0x8) (n := 0x2) rfl rfl,
    decodeWord_wordXYN (op := 0x8) (n := 0x3) rfl rfl, aluOp_next (fun a b => a ||| b) (fun _ _ => 0) x y s,
    aluOp_next (fun a b => a &&& b) (fun _ _ => 0) x y s, aluOp_next (fun a b => a ^^^ b) (fun _ _ => 0) x y s⟩

/-- Settles O16: `carryFlag_toNat` gives the quotient of the exact sum, `BitVec.toNat_add` its remainder. -/
theorem addRegistersWithCarryOut : Obligations.AddRegistersWithCarryOut := by
  intro x y s
  obtain ⟨t, hnext, hframe, hflag, hresult, hother⟩ := aluOp_next_parts (fun a b => a + b) carryFlag x y s
  refine ⟨decodeWord_wordXYN (op := 0x8) (n := 0x4) rfl rfl, t, hnext, hframe, ?_, fun hx => ?_, hother⟩
  · rw [hflag, carryFlag_toNat]
  · rw [hresult hx, BitVec.toNat_add]

/-- Settles O17: `aluOp_difference` with the operands in order, and exchanged. -/
theorem subtractFlagIsStrictlyGreater : Obligations.SubtractFlagIsStrictlyGreater := by
  intro x y s
  exact ⟨decodeWord_wordXYN (op := 0x8) (n := 0x5) rfl rfl, decodeWord_wordXYN (op := 0x8) (n := 0x7) rfl rfl,
    aluOp_difference (fun a b => a - b) greaterFlag x y s rfl rfl,
    aluOp_difference (fun a b => b - a) (fun a b => greaterFlag b a) x y s rfl rfl⟩

/-- Settles O18: `shiftOp_toNat` with half the value and bit 0. -/
theorem shiftRight : Obligations.ShiftRight := by
  intro x y z s hz
  exact ⟨decodeWord_wordXYN (op := 0x8) (n := 0x6) rfl rfl,
    shiftOp_toNat (F := fun a => a / 2) (G := fun a => a % 2) ushiftRight_one_toNat lowBitFlag_toNat hz⟩

/-- Settles O19: `shiftOp_toNat` with the doubled value modulo 256 and bit 7. -/
theorem shiftLeft : Obligations.ShiftLeft := by
  intro x y z s hz
  exact ⟨decodeWord_wordXYN (op := 0x8) (n := 0xE) rfl rfl,
    shiftOp_toNat (F := fun a => 2 * a % 256) (G := fun a => a / 128) shiftLeft_one_toNat highBitFlag_toNat hz⟩

end Sys2Proof.Machine
end

section
/-! PROOFS of 44_display.md: CLS and DRW.  `execDrw_inside` and `execDrw_outside` say once what DRW answers; its pixels
and its flag are then `blit_pixel` and `collides_iff_spriteBit`, and for a second draw `afterDraw_spriteOn`. -/

namespace Sys2Proof.Machine

/-! ### A cleared display, a flag that is set -/

theorem cleared_pixel (row col : Nat) : Display.pixel (Vector.replicate 32 0) row col = false := by
  unfold Display.pixel
  by_cases h : row < 32 <;> simp [h]

theorem flagOf_eq_one (c : Bool) : flagOf c = 1 ↔ c = true := by
  cases c <;> decide

/-! ### What DRW answers -/

section
variable {s : State} {x y : Reg} {n : RowCount}

/-- The state after a draw inside memory (R131): the sprite on the display, then the collision in `VF`. -/
def State.afterDraw (s : State) (x y : Reg) (n : RowCount) : State :=
  (s.setDisp (s.blit x y n)).setFlag (flagOf (s.collides x y n))

/-- Every drawn row lies in memory exactly when the access to all of them does. -/
theorem drawnRows_inside_iff : (∀ r, r < n.val → (s.reg y).toNat % 32 + r ≤ 31 → s.i.toNat + r ≤ 0xFFF) ↔
    s.spriteRows y n = 0 ∨ s.i.toNat + s.spriteRows y n ≤ memSize := by
  unfold State.spriteRows State.originY memSize
  constructor
  · intro h
    have hlast := h (min n.val (32 - (s.reg y).toNat % 32) - 1)
    omega
  · intro h r hr hrow
    omega

theorem execDrw_inside (h : ∀ r, r < n.val → (s.reg y).toNat % 32 + r ≤ 31 → s.i.toNat + r ≤ 0xFFF) :
    exec (.drw x y n) s = .next (s.afterDraw x y n) :=
  execDrw_eq_next.2 ⟨drawnRows_inside_iff.1 h, rfl⟩

/-- R131 with R182: the fault names the lowest address above 0xFFF. -/
theorem execDrw_outside (h : ∃ r, r < n.val ∧ (s.reg y).toNat % 32 + r ≤ 31 ∧ 0xFFF < s.i.toNat + r) :
    exec (.drw x y n) s = .fault (.memOutOfRange (s.pc - 2) (max s.i.toNat 0x1000)) := by
  obtain ⟨r, hr, hrow, habove⟩ := h
  have hout : ¬ (s.spriteRows y n = 0 ∨ s.i.toNat + s.spriteRows y n ≤ memSize) := fun hin =>
    absurd (drawnRows_inside_iff.2 hin r hr hrow) (by omega)
  obtain ⟨hrows, haccess⟩ := not_or.1 hout
  exact withAccess_outside s _ hrows (Nat.lt_of_not_le haccess)

/-! ### The display and the flag after a draw -/

@[simp] theorem afterDraw_disp : (s.afterDraw x y n).disp = s.blit x y n := rfl

@[simp] theorem afterDraw_i : (s.afterDraw x y n).i = s.i := by
  rw [State.afterDraw, State.setFlag_i, State.setDisp_i]

@[simp] theorem afterDraw_byteAt (a : Nat) : (s.afterDraw x y n).byteAt a = s.byteAt a := by
  rw [State.afterDraw, State.setFlag_byteAt, State.setDisp_byteAt]

theorem setDisp_setFlag (d : Display) (b : Byte) :
    (s.setDisp d).setFlag b = { s with v := s.v.set 15 b, disp := d } := rfl

/-- R131: a draw writes registers and the display, and nothing else. -/
theorem afterDraw_frame :
    s.afterDraw x y n = { s with v := (s.afterDraw x y n).v, disp := (s.afterDraw x y n).disp } := by
  rw [State.afterDraw, setDisp_setFlag]

theorem afterDraw_flag : (s.afterDraw x y n).reg 15 = flagOf (s.collides x y n) :=
  reg_setReg_self _ _ _

theorem afterDraw_reg {r : Reg} (hr : r ≠ 15) : (s.afterDraw x y n).reg r = s.reg r := by
  rw [State.afterDraw, reg_setFlag, if_neg hr, State.setDisp_reg]

/-- R131: a pixel is set after the draw when just one of the pixel and the sprite's bit was. -/
theorem afterDraw_pixel {row col : Nat} (hrow : row < 32) (hcol : col < 64) :
    (s.afterDraw x y n).disp.pixel row col = true ↔
      ¬ (s.disp.pixel row col = true ↔ SpriteBit s x y n row col) := by
  rw [afterDraw_disp, blit_pixel s x y n row col hrow, ← spriteOn_eq_true_iff s x y n row col hrow hcol,
    Bool.xor_iff_ne, ne_eq, Bool.eq_iff_iff]

/-- A collision seen from the sprite's bits. -/
theorem collides_iff_spriteBit : s.collides x y n = true ↔
    ∃ row col, row < 32 ∧ col < 64 ∧ s.disp.pixel row col = true ∧ SpriteBit s x y n row col := by
  rw [collides_iff]
  constructor
  · rintro ⟨row, hrow, col, hcol, hpixel, hbit⟩
    exact ⟨row, col, hrow, hcol, hpixel, (spriteOn_eq_true_iff s x y n row col hrow hcol).1 hbit⟩
  · rintro ⟨row, col, hrow, hcol, hpixel, hbit⟩
    exact ⟨row, hrow, col, hcol, hpixel, (spriteOn_eq_true_iff s x y n row col hrow hcol).2 hbit⟩

/-! ### The same sprite once more -/

/-- A sprite's bits depend on `V[x]`, `V[y]`, `I` and memory, none of which a draw writes for X and Y other than 15. -/
theorem afterDraw_spriteBit (hx : x ≠ 15) (hy : y ≠ 15) (row col : Nat) :
    SpriteBit (s.afterDraw x y n) x y n row col ↔ SpriteBit s x y n row col := by
  simp [SpriteBit, afterDraw_reg hx, afterDraw_reg hy]

theorem afterDraw_spriteOn (hx : x ≠ 15) (hy : y ≠ 15) {row : Nat} (hrow : row < 32) :
    (s.afterDraw x y n).spriteOn x y n row = s.spriteOn x y n row := by
  refine BitVec.eq_of_getMsbD_eq fun col hcol => Bool.eq_iff_iff.2 ?_
  rw [spriteOn_eq_true_iff _ x y n row col hrow hcol, spriteOn_eq_true_iff _ x y n row col hrow hcol,
    afterDraw_spriteBit hx hy]

/-- XOR with the same sprite twice cancels in every row. -/
theorem afterDraw_blit (hx : x ≠ 15) (hy : y ≠ 15) : (s.afterDraw x y n).blit x y n = s.disp := by
  ext1 row hrow
  have hsecond :
      ((s.afterDraw x y n).blit x y n)[row] = s.disp[row] ^^^ s.spriteOn x y n row ^^^ s.spriteOn x y n row := by
    simp [State.blit, afterDraw_spriteOn hx hy hrow]
  rw [hsecond, BitVec.xor_assoc, BitVec.xor_self, BitVec.xor_zero]

theorem cleared_not_collides (h : s.disp = Vector.replicate 32 0) : s.collides x y n = false := by
  rw [← Bool.not_eq_true, collides_iff_spriteBit]
  rintro ⟨row, col, -, -, hpixel, -⟩
  rw [h, cleared_pixel] at hpixel
  exact Bool.noConfusion hpixel

/-- On a cleared display the first draw leaves just the sprite, so the second one collides wherever a bit shows. -/
theorem cleared_second_collides_iff (h : s.disp = Vector.replicate 32 0) (hx : x ≠ 15) (hy : y ≠ 15) :
    (s.afterDraw x y n).collides x y n = true ↔ ∃ row col, row < 32 ∧ col < 64 ∧ SpriteBit s x y n row col := by
  have hshown {row col : Nat} (hrow : row < 32) (hcol : col < 64) :
      (s.afterDraw x y n).disp.pixel row col = true ↔ SpriteBit s x y n row col := by
    rw [afterDraw_pixel hrow hcol, h, cleared_pixel]
    simp
  rw [collides_iff_spriteBit]
  simp only [afterDraw_spriteBit hx hy]
  constructor
  · rintro ⟨row, col, hrow, hcol, -, hbit⟩
    exact ⟨row, col, hrow, hcol, hbit⟩
  · rintro ⟨row, col, hrow, hcol, hbit⟩
    exact ⟨row, col, hrow, hcol, (hshown hrow hcol).2 hbit, hbit⟩

end

/-! ### The statements -/

/-- Settles O21: the next state is `s` with every row 0. -/
theorem clsClearsTheDisplay : Obligations.ClsClearsTheDisplay :=
  ⟨decodeWord_encode (i := .cls) rfl,
    fun s => ⟨s.setDisp (Vector.replicate 32 0), rfl, rfl, fun row col _ _ => cleared_pixel row col⟩⟩

/-- Settles O22: inside memory the next state is `s.afterDraw x y n`, whose flag is the collision. -/
theorem drawXorsTheSprite : Obligations.DrawXorsTheSprite := by
  intro x y n s
  have hword : decodeWord (wordXYN 0xD x.val y.val n.val) = .drw x y n :=
    decodeWord_wordXYN (op := 0xD) (n := BitVec.ofFin n) rfl rfl
  refine ⟨hword, fun hin => ?_, execDrw_outside⟩
  refine ⟨s.afterDraw x y n, execDrw_inside hin, afterDraw_frame, fun row col => afterDraw_pixel, fun hhit => ?_,
    fun hmiss => ?_, fun r => afterDraw_reg⟩
  · rw [afterDraw_flag, collides_iff_spriteBit.2 hhit]
    rfl
  · rw [afterDraw_flag, Bool.eq_false_iff.2 (mt collides_iff_spriteBit.1 hmiss)]
    rfl

/-- Settles O23: the second draw has the rows and the sprite of the first, and `afterDraw_blit` cancels the two. -/
theorem drawingTwiceCancels : Obligations.DrawingTwiceCancels := by
  intro x y n s hx hy hin
  have hagain : ∀ r, r < n.val → ((s.afterDraw x y n).reg y).toNat % 32 + r ≤ 31 →
      (s.afterDraw x y n).i.toNat + r ≤ 0xFFF := by
    rw [afterDraw_reg hy, afterDraw_i]
    exact hin
  refine ⟨_, _, execDrw_inside hin, execDrw_inside hagain, afterDraw_blit hx hy, fun hclear => ⟨?_, ?_⟩⟩
  · rw [afterDraw_flag, cleared_not_collides hclear]
    rfl
  · rw [afterDraw_flag, flagOf_eq_one]
    exact cleared_second_collides_iff hclear hx hy

end Sys2Proof.Machine
end

section
/-! PROOFS of 45_keypad.md: the two skips on a key, and the key wait.  `execLdVxK_waits` and `execLdVxK_stores` say once
what FX0A answers; a frame tick of a waiting machine is `step_waiting`, and it leaves the machine waiting (R223). -/

namespace Sys2Proof.Machine

variable {x : Reg} {s : State}

/-! ### The skips on a key (R140, R141) -/

theorem keyOperand_above (h : 15 < (s.reg x).toNat) :
    s.keyOperand x = .error (.keyIndexOutOfRange s.instrPc (s.reg x)) :=
  if_neg (Nat.not_le.2 h)

theorem execSkp_above (h : 15 < (s.reg x).toNat) :
    execSkp x s = .fault (.keyIndexOutOfRange s.instrPc (s.reg x)) := by
  rw [execSkp, keyOperand_above h, orFault_error]

theorem execSknp_above (h : 15 < (s.reg x).toNat) :
    execSknp x s = .fault (.keyIndexOutOfRange s.instrPc (s.reg x)) := by
  rw [execSknp, keyOperand_above h, orFault_error]

/-- A skip on the negated condition has the two addresses exchanged. -/
theorem skipIf_not (c : Bool) : skipIf (!c) s = .next { s with pc := if c = true then s.pc else s.pc + 2 } := by
  cases c <;> rfl

/-! ### The key wait (R142) -/

theorem execLdVxK_waits (h : s.lowestKey = none) : execLdVxK x s = .next s.rewind := by
  rw [execLdVxK, h]

theorem execLdVxK_stores {k : Nat} (h : s.lowestKey = some k) :
    execLdVxK x s = .next (s.setReg x (BitVec.ofNat 8 k)) := by
  rw [execLdVxK, h]

/-- A pressed key is enough for one to be reported. -/
theorem exists_lowestKey (h : ∃ k, k < 16 ∧ s.keyDown k = true) : ∃ k, s.lowestKey = some k := by
  obtain ⟨k, hk, hdown⟩ := h
  refine Option.ne_none_iff_exists'.1 fun hnone => ?_
  rw [(lowestKey_eq_none s).1 hnone k hk] at hdown
  exact Bool.noConfusion hdown

/-! ### A frame tick of a waiting machine (R223) -/

/-- The next frame tick runs, executes FX0A alone, and samples no pressed key. -/
structure State.WaitsForKey (s : State) (x : Reg) : Prop where
  noReset : s.rst = false
  noPause : s.pause = false
  onePerTick : s.cfg.extraPerTick = 0
  fetchInside : s.pc.toNat ≤ 0xFFE
  word : decodeWord (wordOfBytes (s.byteAt s.pc.toNat) (s.byteAt (s.pc.toNat + 1))) = .ldVxK x
  noKey : s.keyIn = 0

/-- The state after such a tick: the prologue, then the advance of the fetch undone by FX0A. -/
def State.afterWait (s : State) : State := s.prologue.advance.rewind

theorem afterWait_pc : s.afterWait.pc = s.pc := BitVec.add_sub_cancel s.pc 2

theorem afterWait_reg (r : Reg) : s.afterWait.reg r = s.reg r := rfl

theorem afterWait_byteAt (a : Nat) : s.afterWait.byteAt a = s.byteAt a := rfl

theorem afterWait_dt : s.afterWait.dt.toNat = s.dt.toNat - 1 := countdown_toNat s.dt

theorem afterWait_st : s.afterWait.st.toNat = s.st.toNat - 1 := countdown_toNat s.st

theorem step_waiting (h : s.WaitsForKey x) : step s = .next s.afterWait := by
  have hin : s.prologue.pc.toNat + 2 ≤ memSize := Nat.add_le_add_right h.fetchInside 2
  have hnone : s.prologue.advance.lowestKey = none := (lowestKey_eq_none_iff_zero _).2 h.noKey
  calc step s
      = cycle s.prologue := by rw [step_tick s h.noReset h.noPause, h.onePerTick, cycles_one]
    _ = execLdVxK x s.prologue.advance := cycle_inside s.prologue hin h.word
    _ = .next s.afterWait := execLdVxK_waits hnone

/-- The machine is still waiting when the host goes on pressing nothing. -/
theorem afterWait_waitsForKey (h : s.WaitsForKey x) : (s.afterWait.driveKeys 0).WaitsForKey x where
  noReset := h.noReset
  noPause := h.noPause
  onePerTick := h.onePerTick
  fetchInside := by rw [State.driveKeys_pc, afterWait_pc]; exact h.fetchInside
  word := by simpa only [State.driveKeys_pc, State.driveKeys_byteAt, afterWait_pc, afterWait_byteAt] using h.word
  noKey := rfl

/-! ### The statements -/

/-- Settles O26: two uses of `step_waiting`, the second from the state the first one leaves waiting. -/
theorem keyWaitSpinsAndTimeRuns : Obligations.KeyWaitSpinsAndTimeRuns := by
  intro x s hrst hpause hone hpc hword hkey
  have hwait : s.WaitsForKey x := ⟨hrst, hpause, hone, hpc, hword, hkey⟩
  refine ⟨s.afterWait, (s.afterWait.driveKeys 0).afterWait, step_waiting hwait,
    step_waiting (afterWait_waitsForKey hwait), afterWait_pc, ?_, fun r => ⟨afterWait_reg r, ?_⟩,
    afterWait_dt, ?_, afterWait_st, ?_⟩
  · rw [afterWait_pc, State.driveKeys_pc, afterWait_pc]
  · rw [afterWait_reg, State.driveKeys_reg, afterWait_reg]
  · rw [afterWait_dt, State.driveKeys_dt, afterWait_dt, Nat.sub_sub]
  · rw [afterWait_st, State.driveKeys_st, afterWait_st, Nat.sub_sub]

/-- Settles O24: the number in `V[x]` names a key, or both skips are the fault of `keyOperand`. -/
theorem skipsOnAKey : Obligations.SkipsOnAKey := by
  intro x s
  have hskp : decodeWord (wordXNN 0xE x.val 0x9E) = .skp x := decodeWord_wordXNN (op := 0xE) (nn := 0x9E) rfl rfl
  have hsknp : decodeWord (wordXNN 0xE x.val 0xA1) = .sknp x := decodeWord_wordXNN (op := 0xE) (nn := 0xA1) rfl rfl
  refine ⟨hskp, hsknp, fun hkey => ⟨?_, ?_⟩, fun habove => ⟨execSkp_above habove, execSknp_above habove⟩⟩
  · exact execSkp_eq_next.2 ⟨hkey, skipIf_eq s _⟩
  · exact execSknp_eq_next.2 ⟨hkey, skipIf_not _⟩

/-- Settles O25: `lowestKey` is `none` exactly when no key is down, and else the smallest pressed key. -/
theorem keyWaitStoresTheLowestKey : Obligations.KeyWaitStoresTheLowestKey := by
  intro x s
  refine ⟨decodeWord_wordXNN (op := 0xF) (nn := 0x0A) rfl rfl,
    fun hnone => execLdVxK_waits ((lowestKey_eq_none s).2 hnone), fun hsome => ?_⟩
  obtain ⟨k, hk⟩ := exists_lowestKey hsome
  obtain ⟨hlt, hdown, hleast⟩ := (lowestKey_eq_some s).1 hk
  refine ⟨s.setReg x (BitVec.ofNat 8 k), k, execLdVxK_stores hk, rfl, hlt, hdown, hleast, ?_, fun r hr => ?_⟩
  · rw [reg_setReg_self, BitVec.toNat_ofNat, Nat.mod_eq_of_lt (by omega)]
  · rw [reg_setReg, if_neg hr]

end Sys2Proof.Machine
end

section
/-! PROOFS of 46_timers.md: the timer transfers, the countdown and the expiry pulse.  The prologue of a frame tick counts down
and sets the pulse; what the tick's instructions then leave of that is `exec_keeps`. -/

namespace Sys2Proof.Machine

variable {i : Instr} {s t : State}

/-! ### What a frame tick's instructions do to the timers and to the pulse -/

/-- R151: only FX15 writes `DT`. -/
theorem delay_notMem_partsWritten (hi : ∀ x : Reg, i ≠ .ldDtVx x) : Part.delay ∉ partsWritten i := by
  cases i with
  | ldDtVx x => exact absurd rfl (hi x)
  | _ => simp [partsWritten]

/-- R152: only FX18 writes `ST`. -/
theorem sound_notMem_partsWritten (hi : ∀ x : Reg, i ≠ .ldStVx x) : Part.sound ∉ partsWritten i := by
  cases i with
  | ldStVx x => exact absurd rfl (hi x)
  | _ => simp [partsWritten]

/-- R190 at one instruction a tick: a tick that goes on executes the instruction at `PC` after the prologue. -/
theorem exec_of_step_eq_next (hrst : s.rst = false) (hpause : s.pause = false) (hone : s.cfg.extraPerTick = 0)
    (hword : decodeWord (wordOfBytes (s.byteAt s.pc.toNat) (s.byteAt (s.pc.toNat + 1))) = i)
    (h : step s = .next t) : exec i s.prologue.advance = .next t := by
  rw [step_tick s hrst hpause, hone, cycles_one, cycle_eq_next] at h
  obtain ⟨-, hexec⟩ := h
  rwa [State.prologue_pc, State.prologue_byteAt, State.prologue_byteAt, hword] at hexec

/-- R156: no instruction touches `snd_expire`. -/
theorem cycle_keeps_pulse (h : cycle s = .next t) : t.sndExpire = s.sndExpire := by
  obtain ⟨-, hexec⟩ := (cycle_eq_next s).1 h
  exact (exec_keeps hexec).pulse

/-- R156 with R190: a whole run of a tick's instructions leaves the pulse that the prologue has set. -/
theorem cycles_keeps_pulse {n : Nat} (h : cycles n s = .next t) : t.sndExpire = s.sndExpire :=
  cycles_keeps (fun u => u.sndExpire = s.sndExpire) (fun _ _ huv hu => (cycle_keeps_pulse huv).trans hu) n s t h rfl

/-! ### The statements -/

/-- Settles O43: the instruction starts from the timers the prologue has counted down, and leaves each one it does not
set. -/
theorem timersCountDownOncePerTick : Obligations.TimersCountDownOncePerTick := by
  intro s t i hrst hpause hone hword hstep
  have hkeeps := exec_keeps (exec_of_step_eq_next hrst hpause hone hword hstep)
  refine ⟨fun hi => ?_, fun hi => ?_⟩
  · have hdelay : t.dt = countdown s.dt := hkeeps.delay (delay_notMem_partsWritten hi)
    rw [hdelay, countdown_toNat]
  · have hsound : t.st = countdown s.st := hkeeps.sound (sound_notMem_partsWritten hi)
    rw [hsound, countdown_toNat]

/-- Settles O44: the prologue sets the pulse from `ST` before the decrement, and no instruction of the tick changes it. -/
theorem soundPulseOnExpiry : Obligations.SoundPulseOnExpiry := by
  intro s t hrst hpause hstep
  rw [step_tick s hrst hpause] at hstep
  rw [cycles_keeps_pulse hstep, State.prologue_sndExpire, beq_iff_eq]

/-- Settles O27: each transfer is the one write of its meaning, `setReg`, `setDt` or `setSt`. -/
theorem timerTransfers : Obligations.TimerTransfers := by
  intro x s
  have hread : decodeWord (wordXNN 0xF x.val 0x07) = .ldVxDt x := decodeWord_wordXNN (op := 0xF) (nn := 0x07) rfl rfl
  have hdelay : decodeWord (wordXNN 0xF x.val 0x15) = .ldDtVx x := decodeWord_wordXNN (op := 0xF) (nn := 0x15) rfl rfl
  have hsound : decodeWord (wordXNN 0xF x.val 0x18) = .ldStVx x := decodeWord_wordXNN (op := 0xF) (nn := 0x18) rfl rfl
  exact ⟨hread, hdelay, hsound, ⟨s.setReg x s.dt, rfl, rfl, fun r => reg_setReg s x r s.dt⟩, rfl, rfl⟩

end Sys2Proof.Machine
end

section
/-! PROOFS of 47_index_memory.md: index arithmetic, font address, decimal digits and the block transfers.  The two transfers
are `storeRegs` or `loadRegs`, then `afterTransfer`; O33 is a load from the bytes of `storeRegs`. -/

namespace Sys2Proof.Machine

variable {s : State} {x : Reg}

/-! ### Index arithmetic and the font address (R160, R161) -/

theorem indexPlus_toNat (n : Nat) : (s.indexPlus n).toNat = (s.i.toNat + n) % 4096 :=
  Nat.mod_eq_of_lt ((Nat.mod_lt _ (by decide : 0 < 4096)).trans (by decide))

theorem indexFlag_eq (i : Word) (b : Byte) : indexFlag i b = if i.toNat + b.toNat > 0xFFF then 1 else 0 := by
  simp only [indexFlag, flagOf, decide_eq_true_eq, gt_iff_lt]

/-- R161: the last glyph begins at `FONT_BASE + 75`, still below 0x200. -/
theorem glyphAddress_lt {d : Nat} (p : Params) (h : d ≤ 15) : p.fontBase.val + 5 * d < 0x200 := by
  have hbase := p.fontBase.isLt
  omega

theorem execLdFVx_above (h : 15 < (s.reg x).toNat) :
    execLdFVx x s = .fault (.glyphIndexOutOfRange s.instrPc (s.reg x)) := by
  have hoperand : s.glyphOperand x = .error (.glyphIndexOutOfRange s.instrPc (s.reg x)) := if_neg (Nat.not_le.2 h)
  rw [execLdFVx, hoperand, orFault_error]

/-! ### Accesses to `I` to `I + n`, and the bytes of a written run -/

theorem lastByte_inside_iff (n : Nat) : s.i.toNat + n ≤ 0xFFF ↔ s.i.toNat + (n + 1) ≤ memSize := by
  unfold memSize
  omega

/-- R42 with R182: the fault names the lowest address above 0xFFF. -/
theorem withAccess_lastByte_above {n : Nat} (r : Result) (h : 0xFFF < s.i.toNat + n) :
    s.withAccess (n + 1) r = .fault (.memOutOfRange (s.pc - 2) (max s.i.toNat 0x1000)) :=
  withAccess_outside s r n.succ_ne_zero (Nat.lt_of_not_le (mt (lastByte_inside_iff n).2 (Nat.not_le.2 h)))

theorem byteAt_writeBytes_of_getElem? {bs : List Byte} {j : Nat} {b : Byte} (a : Nat) (h : bs[j]? = some b) :
    (s.writeBytes a bs).byteAt (a + j) = b := by
  have hj : j < bs.length := (List.getElem?_eq_some_iff.1 h).1
  rw [State.byteAt_writeBytes, if_pos (by omega), Nat.add_sub_cancel_left, h, Option.getD_some]

theorem byteAt_writeBytes_outside {bs : List Byte} {a a' : Nat} (h : a' < a ∨ a + bs.length ≤ a') :
    (s.writeBytes a bs).byteAt a' = s.byteAt a' := by
  rw [State.byteAt_writeBytes, if_neg (by omega)]

/-- R162: a digit is stored as a byte of that value. -/
theorem byteAt_writeBytes_digit {bs : List Byte} {j d : Nat} (a : Nat) (h : bs[j]? = some (BitVec.ofNat 8 d))
    (hd : d < 256) : ((s.writeBytes a bs).byteAt (a + j)).toNat = d := by
  rw [byteAt_writeBytes_of_getElem? a h, BitVec.toNat_ofNat, Nat.mod_eq_of_lt hd]

/-! ### The block transfers (R163, R164) -/

/-- `V[0]` to `V[x]` stored at ascending addresses from `I`, the counterpart of `loadRegs`. -/
def State.storeRegs (s : State) (x : Reg) : State := s.writeBytes s.i.toNat (s.v.toList.take (x.val + 1))

theorem storeRegs_eq (s : State) (x : Reg) : s.storeRegs x = { s with mem := (s.storeRegs x).mem } :=
  State.writeBytes_eq _ s _

@[simp] theorem storeRegs_i : (s.storeRegs x).i = s.i := State.writeBytes_i s _ _

@[simp] theorem storeRegs_cfg : (s.storeRegs x).cfg = s.cfg := State.writeBytes_cfg s _ _

theorem storeRegs_byteAt {r : Reg} (h : r ≤ x) : (s.storeRegs x).byteAt (s.i.toNat + r.val) = s.reg r :=
  byteAt_writeBytes_of_getElem? _ (storedRegs_getElem? s h)

theorem storeRegs_byteAt_outside {a : Nat} (h : a < s.i.toNat ∨ s.i.toNat + x.val < a) :
    (s.storeRegs x).byteAt a = s.byteAt a := by
  refine byteAt_writeBytes_outside ?_
  rw [List.length_take]
  omega

theorem execLdMemVx_inside (h : s.i.toNat + x.val ≤ 0xFFF) :
    execLdMemVx x s = .next ((s.storeRegs x).afterTransfer x) :=
  execLdMemVx_eq_next.2 ⟨(lastByte_inside_iff _).1 h, rfl⟩

theorem execLdVxMem_inside (h : s.i.toNat + x.val ≤ 0xFFF) :
    execLdVxMem x s = .next ((s.loadRegs x).afterTransfer x) :=
  execLdVxMem_eq_next.2 ⟨(lastByte_inside_iff _).1 h, rfl⟩

theorem afterTransfer_legacy (h : s.cfg.qMemInc = .legacy) :
    (s.afterTransfer x).i.toNat = (s.i.toNat + x.val + 1) % 4096 := by
  rw [State.afterTransfer_i, if_pos h, indexPlus_toNat, Nat.add_assoc]

theorem afterTransfer_modern (h : s.cfg.qMemInc = .modern) : (s.afterTransfer x).i = s.i := by
  rw [State.afterTransfer_i, if_neg (by rw [h]; decide)]

/-- The side effect on `I` depends on `I` and `Q_MEMINC` alone. -/
theorem afterTransfer_i_congr {u : State} (hi : u.i = s.i) (hcfg : u.cfg = s.cfg) :
    (u.afterTransfer x).i = (s.afterTransfer x).i := by
  rw [State.afterTransfer_i, State.afterTransfer_i, State.indexPlus, State.indexPlus, hi, hcfg]

theorem storeRegs_afterTransfer_frame : (s.storeRegs x).afterTransfer x =
    { s with mem := ((s.storeRegs x).afterTransfer x).mem, i := ((s.storeRegs x).afterTransfer x).i } := by
  rw [State.afterTransfer_eq, storeRegs_eq]
  rfl

theorem loadRegs_afterTransfer_frame : (s.loadRegs x).afterTransfer x =
    { s with v := ((s.loadRegs x).afterTransfer x).v, i := ((s.loadRegs x).afterTransfer x).i } := by
  rw [State.afterTransfer_eq]
  rfl

/-! ### The statements -/

/-- Settles O28: the flag is computed from the old `I` and the old `V[x]`, and it is the one register written. -/
theorem addToIndexSetsTheFlag : Obligations.AddToIndexSetsTheFlag := by
  intro x s
  refine ⟨decodeWord_wordXNN (op := 0xF) (nn := 0x1E) rfl rfl,
    (s.setI (s.indexPlus (s.reg x).toNat)).setFlag (indexFlag s.i (s.reg x)), rfl, rfl,
    indexPlus_toNat _, ?_, fun r hr => ?_⟩
  · rw [reg_setFlag, if_pos rfl, indexFlag_eq]
  · rw [reg_setFlag, if_neg hr, State.setI_reg]

/-- Settles O29: the glyph's address is below 0x200, so 16 bits hold it. -/
theorem fontAddressOfADigit : Obligations.FontAddressOfADigit := by
  intro x s
  refine ⟨decodeWord_wordXNN (op := 0xF) (nn := 0x29) rfl rfl, fun hdigit => ?_, execLdFVx_above⟩
  have hlt := glyphAddress_lt s.cfg hdigit
  have hvalue : (s.setI (BitVec.ofNat 16 (s.cfg.fontBase.val + 5 * (s.reg x).toNat))).i.toNat =
      s.cfg.fontBase.val + 5 * (s.reg x).toNat := Nat.mod_eq_of_lt (hlt.trans (by decide))
  exact ⟨_, execLdFVx_eq_next.2 ⟨hdigit, rfl⟩, rfl, hvalue, hvalue.trans_lt hlt⟩

/-- Settles O30: the next state is the run of three writes, byte `j` of which is digit `j`. -/
theorem decimalDigitsAreStored : Obligations.DecimalDigitsAreStored := by
  intro x s
  have hbyte := (s.reg x).isLt
  refine ⟨decodeWord_wordXNN (op := 0xF) (nn := 0x33) rfl rfl, fun hin => ?_, withAccess_lastByte_above (n := 2) _⟩
  refine ⟨s.writeBytes s.i.toNat (bcdDigits (s.reg x)), execLdBVx_eq_next.2 ⟨(lastByte_inside_iff 2).1 hin, rfl⟩,
    State.writeBytes_eq _ s _, ?_, ?_, ?_, fun a ha => byteAt_writeBytes_outside ?_⟩
  · exact byteAt_writeBytes_digit (j := 0) _ rfl (by omega)
  · exact byteAt_writeBytes_digit (j := 1) _ rfl (by omega)
  · exact byteAt_writeBytes_digit (j := 2) _ rfl (by omega)
  · exact ha.imp_right id

/-- Settles O31: inside memory the next state is `storeRegs`, then `afterTransfer`, which leaves the bytes stored. -/
theorem registersAreStored : Obligations.RegistersAreStored := by
  intro x s
  refine ⟨decodeWord_wordXNN (op := 0xF) (nn := 0x55) rfl rfl, fun hin => ?_, withAccess_lastByte_above _⟩
  refine ⟨_, execLdMemVx_inside hin, storeRegs_afterTransfer_frame, fun r hr => ?_, fun a ha => ?_, fun hmode => ?_,
    fun hmode => ?_⟩
  · rw [State.afterTransfer_byteAt, storeRegs_byteAt hr]
  · rw [State.afterTransfer_byteAt, storeRegs_byteAt_outside ha]
  · rw [afterTransfer_legacy (by rw [storeRegs_cfg, hmode]), storeRegs_i]
  · rw [afterTransfer_modern (by rw [storeRegs_cfg, hmode]), storeRegs_i]

/-- Settles O32: inside memory the next state is `loadRegs`, then `afterTransfer`, which leaves the registers loaded. -/
theorem registersAreLoaded : Obligations.RegistersAreLoaded := by
  intro x s
  refine ⟨decodeWord_wordXNN (op := 0xF) (nn := 0x65) rfl rfl, fun hin => ?_, withAccess_lastByte_above _⟩
  refine ⟨_, execLdVxMem_inside hin, loadRegs_afterTransfer_frame, fun r => ?_, afterTransfer_legacy (s := s.loadRegs x),
    afterTransfer_modern (s := s.loadRegs x)⟩
  rw [State.afterTransfer_reg, reg_loadRegs]

/-- Settles O33: the load finds at `I + r` the byte that `storeRegs` left there, and moves `I` as the store did. -/
theorem storedRegistersLoadBack : Obligations.StoredRegistersLoadBack := by
  intro x s between hin
  refine ⟨_, _, execLdMemVx_inside hin, execLdVxMem_inside hin, fun r hr => ?_, ?_⟩
  · have hstored : ((s.storeRegs x).afterTransfer x).byteAt (s.i.toNat + r.val) = s.reg r := by
      rw [State.afterTransfer_byteAt, storeRegs_byteAt hr]
    rw [State.afterTransfer_reg, reg_loadRegs, if_pos hr]
    exact hstored
  · refine afterTransfer_i_congr ?_ ?_
    · rw [State.loadRegs_i, storeRegs_i]
    · rw [State.loadRegs_cfg, State.afterTransfer_cfg]

end Sys2Proof.Machine
end

section
/-! PROOFS of 60_exceptions.md R190, R183 and R198: what a frame tick is while paused and while running, and the
`unknown_*` outputs it leaves. -/

namespace Sys2Proof.Machine

variable {i : Instr} {s t : State} {w : Word}

/-! ### The frame tick -/

/-- R198: nothing happens while `pause` is 1. -/
theorem step_paused (hrst : s.rst = false) (hpause : s.pause = true) : step s = .next s := by
  simp [step, frameTick, hrst, hpause]

/-- R190 at one instruction a tick: with the fetch inside memory the tick is the instruction at `PC` after the prologue. -/
theorem step_single (hrst : s.rst = false) (hpause : s.pause = false) (hone : s.cfg.extraPerTick = 0)
    (hpc : s.pc.toNat ≤ 0xFFE)
    (hword : decodeWord (wordOfBytes (s.byteAt s.pc.toNat) (s.byteAt (s.pc.toNat + 1))) = i) :
    step s = exec i s.prologue.advance := by
  rw [step_tick s hrst hpause, hone, cycles_one]
  exact cycle_inside s.prologue (Nat.add_le_add_right hpc 2) hword

/-! ### The report of an UNKNOWN word (R183) -/

/-- Only an UNKNOWN instruction writes the report. -/
theorem report_notMem_partsWritten (hi : ∀ w : Word, i ≠ .unknown w) : Part.report ∉ partsWritten i := by
  cases i with
  | unknown w => exact absurd rfl (hi w)
  | _ => simp [partsWritten]

/-- A word that some named row selects decodes to that row's instruction, never to an UNKNOWN one. -/
theorem decodeWord_ne_unknown (h : isUnknownWord w = false) (w' : Word) : decodeWord w ≠ .unknown w' := by
  intro hdecode
  obtain ⟨hwf, hencode⟩ := decodeWord_denotes w
  rw [hdecode] at hwf hencode
  have hword : w' = w := hencode
  rw [Instr.wellFormed, hword, h] at hwf
  exact Bool.noConfusion hwf

/-- Without a report the three outputs are 0. -/
theorem unknownOutputs_of_none (h : s.unknown = none) :
    s.unknownOpcode = false ∧ s.unknownIr = 0 ∧ s.unknownPc = 0 := by
  simp [State.unknownOpcode, State.unknownIr, State.unknownPc, h]

/-- A word that is not UNKNOWN, or that `STRICT_UNKNOWN` does not ask about, leaves the report as it was. -/
theorem exec_keeps_report (hword : ¬ (isUnknownWord w = true ∧ s.cfg.strictUnknown = true))
    (h : exec (decodeWord w) s = .next t) : t.unknown = s.unknown := by
  cases hunknown : isUnknownWord w with
  | true =>
    have hlenient : s.cfg.strictUnknown = false := by simpa [hunknown] using hword
    rw [decodeWord_of_isUnknownWord hunknown, exec, execUnknown_lenient w hlenient] at h
    cases h
    rfl
  | false => exact (exec_keeps h).report (report_notMem_partsWritten (decodeWord_ne_unknown hunknown))

/-- Under `STRICT_UNKNOWN` an UNKNOWN word is reported with its own address. -/
theorem exec_reports (hword : isUnknownWord w = true ∧ s.cfg.strictUnknown = true)
    (h : exec (decodeWord w) s = .next t) : t = s.report w s.instrPc := by
  obtain ⟨hunknown, hstrict⟩ := hword
  rw [decodeWord_of_isUnknownWord hunknown, exec, execUnknown_strict w hstrict] at h
  cases h
  rfl

/-! ### The statements -/

/-- Settles O7: the prologue clears the report, and the tick's one instruction raises it only for an UNKNOWN word under
`STRICT_UNKNOWN`, with the address before the advance of the fetch. -/
theorem unknownReportLastsOneTick : Obligations.UnknownReportLastsOneTick := by
  intro s t w hrst hpause hone hw hstep
  have hexec : exec (decodeWord w) s.prologue.advance = .next t :=
    exec_of_step_eq_next hrst hpause hone (by rw [hw]) hstep
  refine ⟨fun hreport => ?_, fun hquiet => ?_⟩
  · rw [exec_reports (s := s.prologue.advance) hreport hexec]
    exact ⟨rfl, rfl, BitVec.add_sub_cancel s.pc 2⟩
  · exact unknownOutputs_of_none (exec_keeps_report (s := s.prologue.advance) hquiet hexec)

/-- Settles O42: the state the instruction steps start from is the prologue's. -/
theorem frameTickOrder : Obligations.FrameTickOrder := by
  intro s hrst
  refine ⟨step_paused hrst, fun hpause => ?_, fun _ => rfl, fun _ _ => rfl⟩
  refine ⟨s.prologue, step_tick s hrst hpause, rfl, ?_, countdown_toNat s.st, countdown_toNat s.dt⟩
  rw [State.prologue_sndExpire, beq_iff_eq]

end Sys2Proof.Machine
end

section
/-! PROOFS of 60_exceptions.md R196 and R197, and 70_reset_and_hazards.md R214: the reset port, the load port and the ROM. -/

namespace Sys2Proof.Machine

variable {s : State}

/-! ### The reset port (R196) -/

/-- The reset transition gives the values of R24, the state's own parameters kept. -/
theorem assertReset_atReset (s : State) : s.assertReset.AtReset :=
  { construct_atReset s.cfg s.keyIn s.randIn with }

/-- The values of R24 do not speak of the level at `rst`. -/
theorem State.AtReset.withRst (h : s.AtReset) (level : Bool) : ({ s with rst := level } : State).AtReset :=
  { h with }

/-- While `rst` is asserted a step is the reset transition, whatever `pause` is. -/
theorem step_reset (hrst : s.rst = true) : step s = .next s.assertReset := by
  simp [step, frameTick, hrst]

/-- The reset transition of a machine that was just reset changes nothing. -/
theorem driveRst_true_assertReset (s : State) : (s.driveRst true).assertReset = s.driveRst true := rfl

/-! ### The load port (R197) and the ROM loader (R214) -/

theorem ldWrite_open (addr : Addr) (data : Byte) (h : s.started = false) :
    ldWrite addr data s = .next (s.writeByte addr.toNat data) := by
  simp [ldWrite, h]

theorem ldWrite_during_run (addr : Addr) (data : Byte) (h : s.started = true) :
    ldWrite addr data s = .refused .loadDuringRun := by
  simp [ldWrite, h]

theorem byteAt_writeByte_self (s : State) (a : Nat) (b : Byte) : (s.writeByte a b).byteAt a = b := by
  rw [State.byteAt_writeByte, if_pos rfl]

theorem byteAt_writeByte_ne {a a' : Nat} (b : Byte) (h : a' ≠ a) : (s.writeByte a b).byteAt a' = s.byteAt a' := by
  rw [State.byteAt_writeByte, if_neg h]

theorem loadRom_open {rom : List Byte} (hlen : rom.length ≤ romLimit) (h : s.started = false) :
    loadRom rom s = .next (s.writeBytes romBase rom) := by
  simp [loadRom, Nat.not_lt.2 hlen, h]

/-- R211: with `PC` at the ROM's base the next instruction step executes the word of the ROM's first two bytes. -/
theorem cycle_of_loaded {u : State} {hi lo : Byte} {rest : List Byte} (hlen : (hi :: lo :: rest).length ≤ romLimit)
    (hmem : ∀ a, u.byteAt a = (s.writeBytes romBase (hi :: lo :: rest)).byteAt a) (hpc : u.pc = 0x200) :
    cycle u = exec (decodeWord (wordOfBytes hi lo)) u.advance := by
  have hfetch : fetch u = .ok (wordOfBytes hi lo) :=
    fetch_of_written s (j := 0) hmem (Nat.add_le_add_left hlen romBase) (by rw [hpc]; rfl) rfl rfl
  rw [cycle, hfetch, orFault_ok]

/-! ### The statements -/

/-- Settles O47: a step with `rst` asserted is the reset transition, which gives the values of R24. -/
theorem resetPortGivesTheResetTable : Obligations.ResetPortGivesTheResetTable := by
  intro s hrst
  have h := assertReset_atReset s
  refine ⟨s.assertReset, step_reset hrst, h.regs, h.index, h.counter, h.stackCount, h.stackSlots, h.delay, h.sound,
    h.pixels, h.keys, fun j => ?_, fun a ha => ?_, h.pulse, h.report, s.assertReset_cfg⟩
  · rw [State.assertReset_byteAt, initByte_font]
  · rw [State.assertReset_byteAt, initByte_outside _ ha]

/-- Settles O49: the open port is `writeByte`, the closed one refuses. -/
theorem loadPortWritesOneByte : Obligations.LoadPortWritesOneByte := by
  intro addr data s
  refine ⟨fun hopen => ?_, ldWrite_during_run addr data⟩
  exact ⟨s.writeByte addr.toNat data, ldWrite_open addr data hopen, rfl, byteAt_writeByte_self s _ _,
    fun a ha => byteAt_writeByte_ne data ha⟩

/-- Settles O59: raising `rst` is the reset transition, which a step and lowering `rst` leave as it is, and which opens the
load port. -/
theorem assertingResetActsAtOnce : Obligations.AssertingResetActsAtOnce := by
  intro s
  have hraised : (s.driveRst true).AtReset := (assertReset_atReset s).withRst true
  have hlowered : ((s.driveRst true).driveRst false).AtReset := hraised.withRst false
  have hstep : step (s.driveRst true) = .next (s.driveRst true) := by
    rw [step_reset (s.driveRst_rst true), driveRst_true_assertReset]
  refine ⟨hraised, s.driveRst_cfg true, hstep, hlowered, s.driveRst_false, fun addr data => ?_⟩
  refine ⟨_, ldWrite_open addr data rfl, byteAt_writeByte_self _ _ _, fun a ha => ?_⟩
  rw [byteAt_writeByte_ne data ha]
  exact hlowered.memory a

/-- Settles O50: the loaded ROM is a run of writes from 0x200 up, and the prologue leaves `PC` and memory alone. -/
theorem loadedRomRunsFirst : Obligations.LoadedRomRunsFirst := by
  intro rom s hlen hopen
  refine ⟨s.writeBytes romBase rom, loadRom_open hlen hopen, State.writeBytes_eq rom s romBase, fun j hj => ?_,
    fun a ha => byteAt_writeBytes_outside ha, ?_⟩
  · exact byteAt_writeBytes_of_getElem? romBase (List.getElem?_eq_getElem hj)
  · rintro hi lo rest rfl hpc hrst hpause
    have hfirst := cycle_of_loaded (s := s) (u := (s.writeBytes romBase (hi :: lo :: rest)).prologue) hlen
      (State.prologue_byteAt _) (by rw [State.prologue_pc, State.writeBytes_pc, hpc])
    rw [step_tick _ (by rw [State.writeBytes_rst, hrst]) (by rw [State.writeBytes_pause, hpause]), cycles, hfirst,
      State.writeBytes_cfg]

end Sys2Proof.Machine
end

section
/-! PROOFS of 70_reset_and_hazards.md R222 and R226: setting a timer in one frame tick and reading it in the next, and the
limits within which an instruction completes. -/

namespace Sys2Proof.Machine

variable {i : Instr} {s : State}

/-! ### Setting a timer (R222) -/

/-- R150 with R155: FX07 alone in a frame tick reads `DT` after that tick's countdown. -/
theorem step_reads_delay {y : Reg} (hrst : s.rst = false) (hpause : s.pause = false) (hone : s.cfg.extraPerTick = 0)
    (hpc : s.pc.toNat ≤ 0xFFE)
    (hword : decodeWord (wordOfBytes (s.byteAt s.pc.toNat) (s.byteAt (s.pc.toNat + 1))) = .ldVxDt y) :
    ∃ t, step s = .next t ∧ (t.reg y).toNat = s.dt.toNat - 1 := by
  refine ⟨s.prologue.advance.setReg y (countdown s.dt), step_single hrst hpause hone hpc hword, ?_⟩
  rw [reg_setReg_self, countdown_toNat]

/-- Settles O45: an instruction runs after the countdown of its own tick, so the value set stands until the countdown of the
next tick, which comes before FX07. -/
theorem setThenReadTheDelayTimer : Obligations.SetThenReadTheDelayTimer := by
  intro x y s hrst hpause hone hpc
  have hin : s.pc.toNat ≤ 0xFFE := by omega
  refine ⟨fun hset hread => ?_, fun hset => ⟨_, step_single hrst hpause hone hin hset, rfl⟩⟩
  have hnext : (s.prologue.advance.setDt (s.reg x)).pc.toNat = s.pc.toNat + 2 := by
    rw [State.setDt_pc, State.advance_pc, State.prologue_pc]
    bv_omega
  obtain ⟨u, hu, hy⟩ := step_reads_delay (s := s.prologue.advance.setDt (s.reg x)) hrst hpause hone (by omega)
    (by rw [hnext]; exact hread)
  exact ⟨_, u, step_single hrst hpause hone hin hset, hu, rfl, hy⟩

/-! ### The limits (R226) -/

theorem spans_iff (n : Nat) : s.spans n = true ↔ n = 0 ∨ s.i.toNat + n ≤ memSize := by
  simp [State.spans, memSize]

theorem shiftOp_completes (f g : Byte → Byte) (x y : Reg) (s : State) : ∃ t, shiftOp f g x y s = .next t := by
  unfold shiftOp
  split <;> exact ⟨_, rfl⟩

/-- R226: an instruction goes on exactly within the limits. -/
theorem exec_completes_iff : (∃ t, exec i s = .next t) ↔ withinLimits i s = true := by
  cases i with
  | ret => simp [exec, execRet_eq_next, withinLimits]
  | call nnn => simp [exec, execCall_eq_next, withinLimits]
  | skp x => simp [exec, execSkp_eq_next, withinLimits, skipIf_eq]
  | sknp x => simp [exec, execSknp_eq_next, withinLimits, skipIf_eq]
  | ldFVx x => simp [exec, execLdFVx_eq_next, withinLimits]
  | drw x y n => simp [exec, execDrw_eq_next, withinLimits, spans_iff, State.spriteRows, State.originY]
  | ldBVx x => simp [exec, execLdBVx_eq_next, withinLimits, spans_iff]
  | ldMemVx x => simp [exec, execLdMemVx_eq_next, withinLimits, spans_iff]
  | ldVxMem x => simp [exec, execLdVxMem_eq_next, withinLimits, spans_iff]
  | shr x y => exact iff_of_true (shiftOp_completes (fun a => a >>> 1) lowBitFlag x y s) rfl
  | shl x y => exact iff_of_true (shiftOp_completes (fun a => a <<< 1) highBitFlag x y s) rfl
  | _ => exact iff_of_true ⟨_, rfl⟩ rfl

/-- Settles O53, from `exec_completes_iff`: what does not go on is a fault, since no instruction is refused. -/
theorem execCompletesWithinTheLimits : Obligations.ExecCompletesWithinTheLimits := by
  intro i s
  refine ⟨exec_completes_iff.2, fun hout => ?_⟩
  cases hexec : exec i s with
  | next t => exact absurd (exec_completes_iff.1 ⟨t, hexec⟩) (by simp [hout])
  | fault f => exact ⟨f, rfl⟩
  | refused q => exact absurd hexec (exec_ne_refused i)

end Sys2Proof.Machine
end

section
/-! PROOFS of 70_reset_and_hazards.md R225: the instructions that do not look at a quirk flag.  `IgnoresQuirks` has one rule
for each shape of a meaning. -/

namespace Sys2Proof.Machine

/-- At `s` the operation does under any quirk flags what it does under the state's own, up to the flags themselves. -/
def IgnoresQuirks (op : State → Result) (s : State) : Prop :=
  ∀ shift jump memInc : Quirk,
    op (s.withQuirks shift jump memInc) = andThen (op s) fun t => .next (t.withQuirks shift jump memInc)

variable {s : State}

/-! ### One rule a shape -/

theorem orFault_ignoresQuirks {α : Type} {e : State → Except Fault α} {k : α → State → Result}
    (he : ∀ shift jump memInc, e (s.withQuirks shift jump memInc) = e s) (hk : ∀ a, IgnoresQuirks (k a) s) :
    IgnoresQuirks (fun u => orFault (e u) fun a => k a u) s := by
  intro shift jump memInc
  simp only [he, andThen_orFault, hk _ shift jump memInc]

theorem withAccess_ignoresQuirks {n : State → Nat} {k : State → Result}
    (hn : ∀ shift jump memInc, n (s.withQuirks shift jump memInc) = n s) (hk : IgnoresQuirks k s) :
    IgnoresQuirks (fun u => u.withAccess (n u) (k u)) s := by
  intro shift jump memInc
  simp only [hn, andThen_withAccess, hk shift jump memInc]
  rfl

theorem skipIf_ignoresQuirks {c : State → Bool} (hc : ∀ shift jump memInc, c (s.withQuirks shift jump memInc) = c s) :
    IgnoresQuirks (fun u => skipIf (c u) u) s := by
  intro shift jump memInc
  simp only [hc]
  cases c s <;> rfl

/-! ### The meanings of a shape of their own -/

theorem execRet_ignoresQuirks : IgnoresQuirks execRet s := by
  intro shift jump memInc
  unfold execRet
  by_cases h : 0 < s.sp.val
  · rw [pop_ok s h, pop_ok (s.withQuirks shift jump memInc) h]
    rfl
  · rw [pop_empty s h, pop_empty (s.withQuirks shift jump memInc) h]
    rfl

theorem execCall_ignoresQuirks (nnn : Addr) : IgnoresQuirks (execCall nnn) s := by
  intro shift jump memInc
  unfold execCall
  by_cases h : s.sp.val < 16
  · rw [push_ok s _ h, push_ok (s.withQuirks shift jump memInc) _ h]
    rfl
  · rw [push_full s _ h, push_full (s.withQuirks shift jump memInc) _ h]
    rfl

/-- With equal offsets BNNN adds the same value whichever register `Q_JUMP` chooses. -/
theorem reg_jumpReg {nnn : Addr} (h : s.reg 0 = s.reg (Fin.ofNat 16 (nnn.toNat / 256))) :
    s.reg (s.jumpReg nnn) = s.reg 0 := by
  rw [jumpReg_eq]
  split
  · rfl
  · exact h.symm

theorem execJpOffset_ignoresQuirks {nnn : Addr} (h : s.reg 0 = s.reg (Fin.ofNat 16 (nnn.toNat / 256))) :
    IgnoresQuirks (execJpOffset nnn) s := by
  intro shift jump memInc
  rw [execJpOffset, execJpOffset, reg_jumpReg h, reg_jumpReg (s := s.withQuirks shift jump memInc) h]
  rfl

/-- A shift of one register shifts it under either value of `Q_SHIFT`. -/
theorem shiftReg_self (x : Reg) (s : State) : s.shiftReg x x = x := by
  rw [shiftReg_eq, ite_self]

theorem shiftOp_ignoresQuirks (f g : Byte → Byte) (x : Reg) : IgnoresQuirks (shiftOp f g x x) s := by
  intro shift jump memInc
  have hsource : (s.withQuirks shift jump memInc).cfg.shiftFlagSource = s.cfg.shiftFlagSource := rfl
  unfold shiftOp
  rw [hsource]
  cases s.cfg.shiftFlagSource <;> simp only [shiftReg_self] <;> rfl

theorem writeBytes_withQuirks (shift jump memInc : Quirk) (bs : List Byte) : ∀ (s : State) (a : Nat),
    (s.withQuirks shift jump memInc).writeBytes a bs = (s.writeBytes a bs).withQuirks shift jump memInc := by
  induction bs with
  | nil => exact fun _ _ => rfl
  | cons b rest ih => exact fun s a => ih (s.writeByte a b) (a + 1)

theorem execLdVxK_ignoresQuirks (x : Reg) : IgnoresQuirks (execLdVxK x) s := by
  intro shift jump memInc
  have hkey : (s.withQuirks shift jump memInc).lowestKey = s.lowestKey := rfl
  unfold execLdVxK
  rw [hkey]
  cases s.lowestKey <;> rfl

theorem execUnknown_ignoresQuirks (w : Word) : IgnoresQuirks (execUnknown w) s := by
  intro shift jump memInc
  have hstrict : (s.withQuirks shift jump memInc).cfg.strictUnknown = s.cfg.strictUnknown := rfl
  unfold execUnknown
  rw [hstrict]
  cases s.cfg.strictUnknown <;> rfl

/-! ### The statement -/

/-- R225: the one flag an instruction looks at makes no difference under `quirkFree`. -/
theorem exec_ignoresQuirks {i : Instr} (hfree : quirkFree i s = true) : IgnoresQuirks (exec i) s := by
  cases i with
  | ret => exact execRet_ignoresQuirks
  | call nnn => exact execCall_ignoresQuirks nnn
  | seImm x nn => exact skipIf_ignoresQuirks fun _ _ _ => rfl
  | sneImm x nn => exact skipIf_ignoresQuirks fun _ _ _ => rfl
  | seReg x y => exact skipIf_ignoresQuirks fun _ _ _ => rfl
  | sneReg x y => exact skipIf_ignoresQuirks fun _ _ _ => rfl
  | shr x y =>
    obtain rfl : x = y := beq_iff_eq.1 hfree
    exact shiftOp_ignoresQuirks (fun a => a >>> 1) lowBitFlag x
  | shl x y =>
    obtain rfl : x = y := beq_iff_eq.1 hfree
    exact shiftOp_ignoresQuirks (fun a => a <<< 1) highBitFlag x
  | jpOffset nnn => exact execJpOffset_ignoresQuirks (beq_iff_eq.1 hfree)
  | skp x => exact orFault_ignoresQuirks (fun _ _ _ => rfl) fun _ => skipIf_ignoresQuirks fun _ _ _ => rfl
  | sknp x => exact orFault_ignoresQuirks (fun _ _ _ => rfl) fun _ => skipIf_ignoresQuirks fun _ _ _ => rfl
  | ldFVx x => exact orFault_ignoresQuirks (fun _ _ _ => rfl) fun _ _ _ _ => rfl
  | drw x y n => exact withAccess_ignoresQuirks (fun _ _ _ => rfl) fun _ _ _ => rfl
  | ldBVx x =>
    refine withAccess_ignoresQuirks (fun _ _ _ => rfl) fun shift jump memInc => ?_
    rw [writeBytes_withQuirks]
    rfl
  | ldVxK x => exact execLdVxK_ignoresQuirks x
  | unknown w => exact execUnknown_ignoresQuirks w
  | ldMemVx x => cases hfree
  | ldVxMem x => cases hfree
  | _ => exact fun _ _ _ => rfl

/-- Settles O20, from `exec_ignoresQuirks`. -/
theorem quirkFreeInstructionsIgnoreTheFlags : Obligations.QuirkFreeInstructionsIgnoreTheFlags :=
  fun _ _ shift jump memInc hfree => exec_ignoresQuirks hfree shift jump memInc

end Sys2Proof.Machine
end
